-- ==== Sys2Proof/Word.lean ====
section
/-! DEFINITION. The word types of the SV-48's links, counters and time bases (spec 00_scope.md section 0.5). -/

namespace Sys2Proof

/-- One data byte of a character. -/
abbrev Byte := BitVec 8

/-- A 16-bit value: an event counter, a frame check, a flag pattern. -/
abbrev Half := BitVec 16

/-- A 32-bit value: the millisecond time base (R1) or the supervisor seconds. -/
abbrev Word := BitVec 32

/-- An event counter: 16 bits, saturating (00_scope.md "Counters"). -/
abbrev Counter := BitVec 16

end Sys2Proof
end

