-- ==== Sys2Proof/Config.lean ====
section
/-! DEFINITION. The sizes that are fixed for the part.
The spec leaves no result of a command undefined, so there is no free value here (log 28). -/

namespace Sys2Proof

/-- One of the 24 frame buffers (R15). -/
abbrev BufferId := Fin 24

/-- One of the 8 Exchange Table entries (R50). -/
abbrev ExchangeId := Fin 8

/-- One of the 16 Proxy Table entries (R61). -/
abbrev ProxyId := Fin 16

/-- One of the 32 Route Table entries (R33). -/
abbrev RouteId := Fin 32

/-- A keypad position, row × 8 + column (R143). -/
abbrev KeyPos := Fin 48

/-- One of the 8 Chord Table entries (R170). -/
abbrev ChordId := Fin 8

/-- The code of a sensor's 12-bit converter (05 section 5.1). -/
abbrev SensorCode := BitVec 12

end Sys2Proof
end

