-- ==== Sys2Proof/Syntax.lean ====
section
/-! DEFINITION. The commands of the SV-48: one constructor for each row of spec/opcode_table.json. -/

namespace Sys2Proof

/-- The two serial ports (00_scope.md section 0.3). -/
inductive Port where
  | host
  | field
  deriving DecidableEq, Repr

/-- A character taken when its stop bit has been sampled (R2): `stop` is the stop bit's reading. -/
structure Character where
  data : Byte
  marker : Bool
  stop : Bool
  deriving DecidableEq, Repr

/-- What a port's receive line brings (R2, R3): the start bit of a character, which ends the silence (log 36), or a
whole character, taken when its stop bit has been sampled. -/
inductive Reception where
  | startBit
  | taken (char : Character)
  deriving DecidableEq, Repr

/-- The steps of spec/opcode_table.json. A management command names the port whose oldest waiting command
frame it carries out; its arguments stand in that frame's buffer (R177, log 6). -/
inductive Instr where
  /-- POWER_ON_RESET (R98) -/
  | powerOnReset
  /-- RESET_LINE_RESET (R99) -/
  | resetLineReset
  /-- RECEIVE_CHARACTER (R2): the start bit of a character (R3), or the character taken at its stop bit -/
  | receiveCharacter (port : Port) (event : Reception)
  /-- SKIP_TIMEOUT (R9) -/
  | skipTimeout (port : Port)
  /-- GAP_ERROR (R13) -/
  | gapError (port : Port)
  /-- FRAME_COMPLETE (R14) -/
  | frameComplete (port : Port)
  /-- HOST_TRANSMIT_START (R21) -/
  | hostTransmitStart
  /-- FIELD_TRANSMIT_START (R22) -/
  | fieldTransmitStart
  /-- TRANSMISSION_COMPLETE (R24) -/
  | transmissionComplete (port : Port)
  /-- RATE_CHANGE_APPLY (R3) -/
  | rateChangeApply (port : Port)
  /-- EXCHANGE_DEADLINE_EXPIRY (R54) -/
  | exchangeDeadlineExpiry (entry : ExchangeId)
  /-- LATE_HOLD_EXPIRY (R56) -/
  | lateHoldExpiry (entry : ExchangeId)
  /-- POWER_SETTLE_EXPIRY (R80) -/
  | powerSettleExpiry
  /-- BOOT_GRACE_EXPIRY (R81) -/
  | bootGraceExpiry
  /-- WINDOW_MAX_EXPIRY (R82) -/
  | windowMaxExpiry
  /-- WARN_GRACE_EXPIRY (R83) -/
  | warnGraceExpiry
  /-- RESET_PULSE_EXPIRY (R88) -/
  | resetPulseExpiry
  /-- CYCLE_OFF_EXPIRY (R89) -/
  | cycleOffExpiry
  /-- STOP_DELAY_EXPIRY (R91) -/
  | stopDelayExpiry
  /-- TEMPERATURE_SAMPLE (R101): the codes read from the three sensors -/
  | temperatureSample (board glass air : SensorCode)
  /-- DWELL_EXPIRY (R110) -/
  | dwellExpiry
  /-- DEMAND_EVENT (R120) -/
  | demandEvent
  /-- HEAT_BOUNDARY (R119) -/
  | heatBoundary
  /-- TACH_PULSE (R132) -/
  | tachPulse
  /-- CUTOFF_ACTIVE (R128) -/
  | cutoffActive
  /-- CUTOFF_RELEASE (R129) -/
  | cutoffRelease
  /-- LEARN_COMPLETE (R138) -/
  | learnComplete
  /-- KEYPAD_SAMPLE (R143): bit p of the raw sample is 1 when position p reads pressed -/
  | keypadSample (pressed : BitVec 48)
  /-- REPEAT_EXPIRY (R163) -/
  | repeatExpiry (key : KeyPos)
  /-- CHORD_FIRE (R172) -/
  | chordFire (chord : ChordId)
  /-- PERMIT_EXPIRY (R180) -/
  | permitExpiry
  /-- STORE_WRITE_COMPLETE (R187) -/
  | storeWriteComplete
  /-- STATUS (R181) -/
  | status (port : Port)
  /-- READ_ENTRY (R183) -/
  | readEntry (port : Port)
  /-- WRITE_ENTRY (R184) -/
  | writeEntry (port : Port)
  /-- COMMIT (R185) -/
  | commit (port : Port)
  /-- DISCARD (R183) -/
  | discard (port : Port)
  /-- WRITE_PROXY (R65) -/
  | writeProxy (port : Port)
  /-- SET_FLAGS (R30) -/
  | setFlags (port : Port)
  /-- FEED (R84) -/
  | feed (port : Port)
  /-- HOST_RESTART (R90) -/
  | hostRestart (port : Port)
  /-- HOST_POWER_OFF (R91) -/
  | hostPowerOff (port : Port)
  /-- HOST_RELEASE (R78) -/
  | hostRelease (port : Port)
  /-- READ_LOG (R95) -/
  | readLog (port : Port)
  /-- CLEAR_LOG (R95) -/
  | clearLog (port : Port)
  /-- READ_COUNTERS (R182) -/
  | readCounters (port : Port)
  /-- LEARN_AIRFLOW (R137) -/
  | learnAirflow (port : Port)
  /-- FREEZE (R179) -/
  | freeze (port : Port)
  /-- SUPERVISOR_RESET (R189) -/
  | supervisorReset (port : Port)
  /-- HEAT_STEP (R126) -/
  | heatStep
  deriving DecidableEq, Repr

end Sys2Proof
end

