-- ==== Sys2Proof/WellFormed.lean ====
section
/-! DEFINITION. Which commands are well formed.
Every range the spec sets on an operand (exchange entries 0 to 7, keys 0 to 47, chords 0 to 7, 12-bit codes,
8-bit data) is carried by the operand's type, so a command outside it cannot be written and no check is left. -/

namespace Sys2Proof

/-- Every command that can be written is well formed: the operand types hold the spec's ranges. -/
def Instr.wellFormed (_ : Instr) : Bool := true

end Sys2Proof
end

