-- ==== Sys2Proof/Machine/Bytes.lean ====
section
/-! DEFINITION. Byte order and the frame check: multi-byte values high byte first (R177, section 1.10),
signed values in two's complement, and the CRC-16 of R5. -/

namespace Sys2Proof.Machine

/-- A number as one byte. -/
def byte (n : Nat) : Byte := BitVec.ofNat 8 n

/-- A 16-bit value, high byte first. -/
def be16 (n : Nat) : List Byte := [byte (n / 256), byte n]

/-- A 24-bit value, high byte first. -/
def be24 (n : Nat) : List Byte := [byte (n / 65536), byte (n / 256), byte n]

/-- A 32-bit value, high byte first. -/
def be32 (n : Nat) : List Byte := [byte (n / 16777216), byte (n / 65536), byte (n / 256), byte n]

/-- A signed 16-bit value in two's complement, high byte first. -/
def beInt16 (i : Int) : List Byte := be16 (BitVec.ofInt 16 i).toNat

/-- A signed 32-bit value in two's complement, high byte first. -/
def beInt32 (i : Int) : List Byte := be32 (BitVec.ofInt 32 i).toNat

/-- The unsigned value of bytes sent high byte first. -/
def readBE (bs : List Byte) : Nat := bs.foldl (fun n b => n * 256 + b.toNat) 0

/-- The signed value of two bytes. -/
def readInt16 (bs : List Byte) : Int := (BitVec.ofNat 16 (readBE bs)).toInt

/-- The signed value of four bytes. -/
def readInt32 (bs : List Byte) : Int := (BitVec.ofNat 32 (readBE bs)).toInt

/-- A yes/no value as a number. -/
def bit (b : Bool) : Nat := if b then 1 else 0

/-- One bit of the check: polynomial x^16 + x^12 + x^5 + 1 (R5). -/
def crcShift (c : Half) : Half :=
  if c.msb then (c <<< 1) ^^^ 0x1021#16 else c <<< 1

/-- One byte fed to the check, most significant bit first (R5). -/
def crcByte (c : Half) (b : Byte) : Half :=
  crcShift (crcShift (crcShift (crcShift (crcShift (crcShift (crcShift (crcShift
    (c ^^^ (b.setWidth 16 <<< 8)))))))))

/-- The check of R5 over bytes in order: initial value 0xFFFF, no final inversion. -/
def crc16 (bs : List Byte) : Half := bs.foldl crcByte 0xFFFF#16

end Sys2Proof.Machine
end

