-- ==== Sys2Proof/Machine/Tables.lean ====
section
/-! DEFINITION. The seven staged tables (section 9.4): the fields of their entries, their factory defaults,
their ranges, and their read, write and image layouts (section 9.8). -/

namespace Sys2Proof.Machine

/-! ### Conditions and the Route Table (R31, R33) -/

/-- A condition as an entry holds it: selector 0 to 15 and a sense bit (section 2.2). -/
structure Condition where
  selector : BitVec 4
  sense : Bool
  deriving DecidableEq, Repr

/-- The condition Always: selector 15, sense 0 (R31). -/
def Condition.always : Condition := ⟨15, false⟩

/-- The class of a frame, control bits 1 to 0 (section 1.2). -/
inductive FrameClass where
  | request
  | reply
  | notice
  | command
  deriving DecidableEq, Repr

/-- The frame class a route entry matches (R33). -/
inductive ClassMatch where
  | request
  | reply
  | notice
  | any
  deriving DecidableEq, Repr

/-- The station kind a route entry matches (R33). -/
inductive StationMatch where
  | own
  | broadcast
  | any
  deriving DecidableEq, Repr

/-- What is done with a matched frame (R33). -/
inductive RouteAction where
  | forward
  | drop
  | answer
  deriving DecidableEq, Repr

/-- A Route Table entry without its hit counter (R33). -/
structure RouteEntry where
  valid : Bool
  source : Port
  cls : ClassMatch
  station : StationMatch
  topicLow : Byte
  topicHigh : Byte
  condition : Condition
  action : RouteAction
  feed : Bool
  capture : Bool
  pattern : Half
  deriving DecidableEq, Repr

/-- The factory default of every Route entry: valid no (R49); the other fields all zero (log 16). -/
def RouteEntry.factory : RouteEntry :=
  ⟨false, .field, .request, .own, 0, 0, ⟨0, false⟩, .forward, false, false, 0⟩

/-! ### Key Map and Chord Table (R160, R170) -/

/-- A Key Map entry (R160). -/
structure KeyMapEntry where
  code : Byte
  rep : Bool
  fieldRelevant : Bool
  condition : Condition
  deriving DecidableEq, Repr

/-- What a chord does (R170). -/
inductive ChordAction where
  | restartHost
  | powerCycleHost
  | releaseHost
  | grantPermit
  | flagPattern
  | noticeOnly
  deriving DecidableEq, Repr

/-- A Chord Table entry (R170). -/
structure ChordEntry where
  valid : Bool
  first : KeyPos
  second : KeyPos
  third : Option KeyPos
  holdTime : Nat
  condition : Condition
  action : ChordAction
  pattern : Half
  deriving DecidableEq, Repr

/-- The factory default of every Chord entry: valid no (R170); the other fields at the least code of their
range (log 16). -/
def ChordEntry.factory : ChordEntry := ⟨false, 0, 0, none, 500, ⟨0, false⟩, .restartHost, 0⟩

/-- The keys that make the chord. -/
def ChordEntry.members (e : ChordEntry) : List KeyPos := e.first :: e.second :: e.third.toList

/-! ### Proxy Setup (R61) -/

/-- The setup part of a Proxy Table entry (R61). -/
structure ProxySetup where
  valid : Bool
  topic : Byte
  maxAge : Half
  deriving DecidableEq, Repr

/-- The factory default of every Proxy Setup entry: valid no (R68); topic and maxAge zero (log 16). -/
def ProxySetup.factory : ProxySetup := ⟨false, 0, 0⟩

/-! ### The tables -/

abbrev RouteTable := Vector RouteEntry 32
abbrev KeyMapTable := Vector KeyMapEntry 48
abbrev ChordTable := Vector ChordEntry 8
/-- A curve's 17 points T[0] to T[16], in tenths of a degree (R104). -/
abbrev CurveTable := Vector Int 17
/-- The 61 settings by index (R186). -/
abbrev SettingsTable := Vector Int 61
abbrev ProxySetupTable := Vector ProxySetup 16

/-- The range and default of one setting (R186). -/
structure SettingRow where
  lo : Int
  hi : Int
  dflt : Int
  deriving DecidableEq, Repr

/-- Settings 0 to 11 of the table in section 9.5 (R186). -/
def settingRows0 : List SettingRow := [
  ⟨0, 4, 4⟩ /- hostRate -/,
  ⟨0, 4, 1⟩ /- fieldRate -/,
  ⟨1, 247, 1⟩ /- ownStation -/,
  ⟨1, 247, 247⟩ /- mgmtStation -/,
  ⟨0, 255, 240⟩ /- keyTopic -/,
  ⟨0, 255, 0⟩ /- initialFlags -/,
  ⟨5, 2000, 40⟩ /- hostAnswerLimit -/,
  ⟨100, 10000, 1000⟩ /- lateHold -/,
  ⟨0, 1, 1⟩ /- autoStart -/,
  ⟨10, 2000, 200⟩ /- powerSettle -/,
  ⟨5, 900, 120⟩ /- bootGrace -/,
  ⟨0, 60000, 0⟩ /- windowMin -/]

/-- Settings 12 to 23 of the table in section 9.5 (R186). -/
def settingRows1 : List SettingRow := [
  ⟨100, 60000, 5000⟩ /- windowMax -/,
  ⟨100, 60000, 2000⟩ /- warnGrace -/,
  ⟨0, 1, 1⟩ /- trafficFeed -/,
  ⟨10, 1000, 100⟩ /- resetPulse -/,
  ⟨1, 60, 5⟩ /- cycleOff -/,
  ⟨60, 86400, 3600⟩ /- budgetWindow -/,
  ⟨1, 8, 5⟩ /- maxRestarts -/,
  ⟨1, 8, 2⟩ /- resetEscalation -/,
  ⟨0, 1, 0⟩ /- boardCurve -/,
  ⟨0, 1, 1⟩ /- glassCurve -/,
  ⟨0, 1, 0⟩ /- airCurve -/,
  ⟨-400, 400, 0⟩ /- bootMinTemp -/]

/-- Settings 24 to 35 of the table in section 9.5 (R186). -/
def settingRows2 : List SettingRow := [
  ⟨-400, 400, -100⟩ /- glassMinTemp -/,
  ⟨0, 100, 20⟩ /- readyHyst -/,
  ⟨0, 600, 60⟩ /- readyDwell -/,
  ⟨1, 120, 30⟩ /- coldFallback -/,
  ⟨500, 1200, 800⟩ /- shutdownTemp -/,
  ⟨300, 1150, 700⟩ /- resumeTemp -/,
  ⟨-400, 600, 50⟩ /- boardSetpoint -/,
  ⟨-400, 600, 0⟩ /- glassSetpoint -/,
  ⟨0, 255, 32⟩ /- boardKp -/,
  ⟨0, 255, 16⟩ /- glassKp -/,
  ⟨0, 255, 4⟩ /- boardKi -/,
  ⟨0, 255, 8⟩ /- glassKi -/]

/-- Settings 36 to 47 of the table in section 9.5 (R186). -/
def settingRows3 : List SettingRow := [
  ⟨0, 255, 60⟩ /- supplyCap -/,
  ⟨0, 255, 35⟩ /- hostLoad -/,
  ⟨0, 255, 20⟩ /- boardLoad -/,
  ⟨0, 255, 30⟩ /- glassLoad -/,
  ⟨0, 10, 3⟩ /- heatGap -/,
  ⟨0, 1, 0⟩ /- heatPriority -/,
  ⟨0, 1000, 350⟩ /- fanStart -/,
  ⟨0, 1200, 500⟩ /- fanFull -/,
  ⟨0, 100, 30⟩ /- fanMin -/,
  ⟨100, 6000, 600⟩ /- stallRpm -/,
  ⟨0, 1000, 80⟩ /- clogLimit -/,
  ⟨-1000, 1000, 0⟩ /- baselineDelta -/]

/-- Settings 48 to 59 of the table in section 9.5 (R186). -/
def settingRows4 : List SettingRow := [
  ⟨0, 1, 0⟩ /- baselineLearned -/,
  ⟨2, 20, 5⟩ /- scanInterval -/,
  ⟨1, 15, 3⟩ /- pressCount -/,
  ⟨1, 15, 3⟩ /- releaseCount -/,
  ⟨1, 15, 6⟩ /- coldPressCount -/,
  ⟨1, 15, 6⟩ /- coldReleaseCount -/,
  ⟨-400, 400, -100⟩ /- keyColdTemp -/,
  ⟨0, 600, 30⟩ /- stuckTime -/,
  ⟨3, 48, 6⟩ /- floodCount -/,
  ⟨100, 10000, 2000⟩ /- floodClear -/,
  ⟨100, 2000, 500⟩ /- repeatDelay -/,
  ⟨20, 1000, 100⟩ /- repeatPeriod -/]

/-- Settings 60 to 60 of the table in section 9.5 (R186). -/
def settingRows5 : List SettingRow := [
  ⟨1, 120, 10⟩ /- permitTime -/]

/-- The 61 rows of R186's table, in order of index. -/
def settingRows : List SettingRow :=
  settingRows0 ++ settingRows1 ++ settingRows2 ++ settingRows3 ++ settingRows4 ++ settingRows5

/-- The range and default of setting `i`. -/
def settingRow (i : Fin 61) : SettingRow := settingRows.getD i ⟨0, 0, 0⟩

/-- The factory defaults of the Settings table: the Default column (R186). -/
def factorySettings : SettingsTable := Vector.ofFn fun i => (settingRow i).dflt

/-- The factory defaults of the Route Table (R49). -/
def factoryRoutes : RouteTable := Vector.replicate 32 RouteEntry.factory

/-- The factory defaults of the Key Map: position p has the code p + 1 (R160). -/
def factoryKeyMap : KeyMapTable := Vector.ofFn fun p => ⟨byte (p + 1), false, false, .always⟩

/-- The factory defaults of the Chord Table (R170). -/
def factoryChords : ChordTable := Vector.replicate 8 ChordEntry.factory

/-- The factory defaults of curve A (R104). -/
def factoryCurveA : CurveTable :=
  #v[1300, 940, 690, 515, 380, 265, 160, 60, -40, -150, -262, -380, -500, -500, -500, -500, -500]

/-- The factory defaults of curve B (R104). -/
def factoryCurveB : CurveTable :=
  #v[1500, 1120, 830, 640, 500, 385, 285, 195, 110, 25, -60, -150, -245, -350, -470, -500, -500]

/-- The factory defaults of the Proxy Setup table (R68). -/
def factoryProxy : ProxySetupTable := Vector.replicate 16 ProxySetup.factory

/-! ### Settings by name (R186) -/

/-- Setting 0 (R186). -/
def SettingsTable.hostRate (t : SettingsTable) : Int := t[0]

/-- Setting 1 (R186). -/
def SettingsTable.fieldRate (t : SettingsTable) : Int := t[1]

/-- Setting 2 (R186). -/
def SettingsTable.ownStation (t : SettingsTable) : Int := t[2]

/-- Setting 3 (R186). -/
def SettingsTable.mgmtStation (t : SettingsTable) : Int := t[3]

/-- Setting 4 (R186). -/
def SettingsTable.keyTopic (t : SettingsTable) : Int := t[4]

/-- Setting 5 (R186). -/
def SettingsTable.initialFlags (t : SettingsTable) : Int := t[5]

/-- Setting 6 (R186). -/
def SettingsTable.hostAnswerLimit (t : SettingsTable) : Int := t[6]

/-- Setting 7 (R186). -/
def SettingsTable.lateHold (t : SettingsTable) : Int := t[7]

/-- Setting 8 (R186). -/
def SettingsTable.autoStart (t : SettingsTable) : Int := t[8]

/-- Setting 9 (R186). -/
def SettingsTable.powerSettle (t : SettingsTable) : Int := t[9]

/-- Setting 10 (R186). -/
def SettingsTable.bootGrace (t : SettingsTable) : Int := t[10]

/-- Setting 11 (R186). -/
def SettingsTable.windowMin (t : SettingsTable) : Int := t[11]

/-- Setting 12 (R186). -/
def SettingsTable.windowMax (t : SettingsTable) : Int := t[12]

/-- Setting 13 (R186). -/
def SettingsTable.warnGrace (t : SettingsTable) : Int := t[13]

/-- Setting 14 (R186). -/
def SettingsTable.trafficFeed (t : SettingsTable) : Int := t[14]

/-- Setting 15 (R186). -/
def SettingsTable.resetPulse (t : SettingsTable) : Int := t[15]

/-- Setting 16 (R186). -/
def SettingsTable.cycleOff (t : SettingsTable) : Int := t[16]

/-- Setting 17 (R186). -/
def SettingsTable.budgetWindow (t : SettingsTable) : Int := t[17]

/-- Setting 18 (R186). -/
def SettingsTable.maxRestarts (t : SettingsTable) : Int := t[18]

/-- Setting 19 (R186). -/
def SettingsTable.resetEscalation (t : SettingsTable) : Int := t[19]

/-- Setting 20 (R186). -/
def SettingsTable.boardCurve (t : SettingsTable) : Int := t[20]

/-- Setting 21 (R186). -/
def SettingsTable.glassCurve (t : SettingsTable) : Int := t[21]

/-- Setting 22 (R186). -/
def SettingsTable.airCurve (t : SettingsTable) : Int := t[22]

/-- Setting 23 (R186). -/
def SettingsTable.bootMinTemp (t : SettingsTable) : Int := t[23]

/-- Setting 24 (R186). -/
def SettingsTable.glassMinTemp (t : SettingsTable) : Int := t[24]

/-- Setting 25 (R186). -/
def SettingsTable.readyHyst (t : SettingsTable) : Int := t[25]

/-- Setting 26 (R186). -/
def SettingsTable.readyDwell (t : SettingsTable) : Int := t[26]

/-- Setting 27 (R186). -/
def SettingsTable.coldFallback (t : SettingsTable) : Int := t[27]

/-- Setting 28 (R186). -/
def SettingsTable.shutdownTemp (t : SettingsTable) : Int := t[28]

/-- Setting 29 (R186). -/
def SettingsTable.resumeTemp (t : SettingsTable) : Int := t[29]

/-- Setting 30 (R186). -/
def SettingsTable.boardSetpoint (t : SettingsTable) : Int := t[30]

/-- Setting 31 (R186). -/
def SettingsTable.glassSetpoint (t : SettingsTable) : Int := t[31]

/-- Setting 32 (R186). -/
def SettingsTable.boardKp (t : SettingsTable) : Int := t[32]

/-- Setting 33 (R186). -/
def SettingsTable.glassKp (t : SettingsTable) : Int := t[33]

/-- Setting 34 (R186). -/
def SettingsTable.boardKi (t : SettingsTable) : Int := t[34]

/-- Setting 35 (R186). -/
def SettingsTable.glassKi (t : SettingsTable) : Int := t[35]

/-- Setting 36 (R186). -/
def SettingsTable.supplyCap (t : SettingsTable) : Int := t[36]

/-- Setting 37 (R186). -/
def SettingsTable.hostLoad (t : SettingsTable) : Int := t[37]

/-- Setting 38 (R186). -/
def SettingsTable.boardLoad (t : SettingsTable) : Int := t[38]

/-- Setting 39 (R186). -/
def SettingsTable.glassLoad (t : SettingsTable) : Int := t[39]

/-- Setting 40 (R186). -/
def SettingsTable.heatGap (t : SettingsTable) : Int := t[40]

/-- Setting 41 (R186). -/
def SettingsTable.heatPriority (t : SettingsTable) : Int := t[41]

/-- Setting 42 (R186). -/
def SettingsTable.fanStart (t : SettingsTable) : Int := t[42]

/-- Setting 43 (R186). -/
def SettingsTable.fanFull (t : SettingsTable) : Int := t[43]

/-- Setting 44 (R186). -/
def SettingsTable.fanMin (t : SettingsTable) : Int := t[44]

/-- Setting 45 (R186). -/
def SettingsTable.stallRpm (t : SettingsTable) : Int := t[45]

/-- Setting 46 (R186). -/
def SettingsTable.clogLimit (t : SettingsTable) : Int := t[46]

/-- Setting 47 (R186). -/
def SettingsTable.baselineDelta (t : SettingsTable) : Int := t[47]

/-- Setting 48 (R186). -/
def SettingsTable.baselineLearned (t : SettingsTable) : Int := t[48]

/-- Setting 49 (R186). -/
def SettingsTable.scanInterval (t : SettingsTable) : Int := t[49]

/-- Setting 50 (R186). -/
def SettingsTable.pressCount (t : SettingsTable) : Int := t[50]

/-- Setting 51 (R186). -/
def SettingsTable.releaseCount (t : SettingsTable) : Int := t[51]

/-- Setting 52 (R186). -/
def SettingsTable.coldPressCount (t : SettingsTable) : Int := t[52]

/-- Setting 53 (R186). -/
def SettingsTable.coldReleaseCount (t : SettingsTable) : Int := t[53]

/-- Setting 54 (R186). -/
def SettingsTable.keyColdTemp (t : SettingsTable) : Int := t[54]

/-- Setting 55 (R186). -/
def SettingsTable.stuckTime (t : SettingsTable) : Int := t[55]

/-- Setting 56 (R186). -/
def SettingsTable.floodCount (t : SettingsTable) : Int := t[56]

/-- Setting 57 (R186). -/
def SettingsTable.floodClear (t : SettingsTable) : Int := t[57]

/-- Setting 58 (R186). -/
def SettingsTable.repeatDelay (t : SettingsTable) : Int := t[58]

/-- Setting 59 (R186). -/
def SettingsTable.repeatPeriod (t : SettingsTable) : Int := t[59]

/-- Setting 60 (R186). -/
def SettingsTable.permitTime (t : SettingsTable) : Int := t[60]

/-- A value clamped into a range; the second part says whether it was moved (00_scope.md "Clamped and refused"). -/
def clampInt (lo hi x : Int) : Int := max lo (min hi x)

/-! ### Layouts of section 9.8 -/

/-- The condition byte: bits 3 to 0 selector, bit 7 sense. -/
def Condition.encode (c : Condition) : Byte := byte (c.selector.toNat + 128 * bit c.sense)

/-- The condition byte as written: bits 6 to 4 are ignored. -/
def Condition.decode (b : Byte) : Condition := ⟨b.setWidth 4, b.msb⟩

/-- A code outside the field's list gives none (R184). -/
def ClassMatch.ofCode : Nat → Option ClassMatch
  | 0 => some .request
  | 1 => some .reply
  | 2 => some .notice
  | 3 => some .any
  | _ => none

def ClassMatch.code : ClassMatch → Nat
  | .request => 0
  | .reply => 1
  | .notice => 2
  | .any => 3

def StationMatch.ofCode : Nat → Option StationMatch
  | 0 => some .own
  | 1 => some .broadcast
  | 2 => some .any
  | _ => none

def StationMatch.code : StationMatch → Nat
  | .own => 0
  | .broadcast => 1
  | .any => 2

def RouteAction.ofCode : Nat → Option RouteAction
  | 0 => some .forward
  | 1 => some .drop
  | 2 => some .answer
  | _ => none

def RouteAction.code : RouteAction → Nat
  | .forward => 0
  | .drop => 1
  | .answer => 2

def ChordAction.ofCode : Nat → Option ChordAction
  | 0 => some .restartHost
  | 1 => some .powerCycleHost
  | 2 => some .releaseHost
  | 3 => some .grantPermit
  | 4 => some .flagPattern
  | 5 => some .noticeOnly
  | _ => none

/-- The chord action codes of section 1.10. -/
def ChordAction.code : ChordAction → Nat
  | .restartHost => 0
  | .powerCycleHost => 1
  | .releaseHost => 2
  | .grantPermit => 3
  | .flagPattern => 4
  | .noticeOnly => 5

/-- Byte `i` of a layout. -/
def byteAt (bs : List Byte) (i : Nat) : Byte := bs.getD i 0

/-- Route bytes 0 to 8 (section 9.8). -/
def RouteEntry.encode (e : RouteEntry) : List Byte :=
  [byte (bit e.valid + 2 * bit (e.source == .host) + 4 * bit e.feed + 8 * bit e.capture),
   byte e.cls.code, byte e.station.code, e.topicLow, e.topicHigh, e.condition.encode,
   byte e.action.code] ++ be16 e.pattern.toNat

/-- A written Route entry, or none for an enumerated field outside its list (R184). -/
def RouteEntry.decode (bs : List Byte) : Option RouteEntry := do
  let cls ← ClassMatch.ofCode (byteAt bs 1).toNat
  let station ← StationMatch.ofCode (byteAt bs 2).toNat
  let action ← RouteAction.ofCode (byteAt bs 6).toNat
  let b0 := byteAt bs 0
  return ⟨b0.getLsbD 0, if b0.getLsbD 1 then .host else .field, cls, station, byteAt bs 3, byteAt bs 4,
    Condition.decode (byteAt bs 5), action, b0.getLsbD 2, b0.getLsbD 3,
    BitVec.ofNat 16 (readBE [byteAt bs 7, byteAt bs 8])⟩

/-- Key Map bytes 0 to 2 (section 9.8). -/
def KeyMapEntry.encode (e : KeyMapEntry) : List Byte :=
  [e.code, byte (bit e.rep + 2 * bit e.fieldRelevant), e.condition.encode]

def KeyMapEntry.decode (bs : List Byte) : KeyMapEntry :=
  ⟨byteAt bs 0, (byteAt bs 1).getLsbD 0, (byteAt bs 1).getLsbD 1, Condition.decode (byteAt bs 2)⟩

/-- Chord bytes 0 to 9 (section 9.8). -/
def ChordEntry.encode (e : ChordEntry) : List Byte :=
  [byte (bit e.valid), byte e.first, byte e.second,
   match e.third with
   | some k => byte k
   | none => 255] ++ be16 e.holdTime ++
  [e.condition.encode, byte e.action.code] ++ be16 e.pattern.toNat

/-- A keypad position, or none above 47. -/
def keyPosOfNat (n : Nat) : Option KeyPos := if h : n < 48 then some ⟨n, h⟩ else none

/-- A written Chord entry with its hold time clamped, and whether it was clamped; none for a code or a member
outside its list (R184). -/
def ChordEntry.decode (bs : List Byte) : Option (ChordEntry × Bool) := do
  let first ← keyPosOfNat (byteAt bs 1).toNat
  let second ← keyPosOfNat (byteAt bs 2).toNat
  let third ← if byteAt bs 3 = 255 then some none else (keyPosOfNat (byteAt bs 3).toNat).map some
  let action ← ChordAction.ofCode (byteAt bs 7).toNat
  let hold := readBE [byteAt bs 4, byteAt bs 5]
  let clamped := max 500 (min 10000 hold)
  return (⟨(byteAt bs 0).getLsbD 0, first, second, third, clamped, Condition.decode (byteAt bs 6), action,
    BitVec.ofNat 16 (readBE [byteAt bs 8, byteAt bs 9])⟩, clamped != hold)

/-- Proxy Setup bytes 0 to 3 (section 9.8). -/
def ProxySetup.encode (e : ProxySetup) : List Byte :=
  [byte (bit e.valid), e.topic] ++ be16 e.maxAge.toNat

def ProxySetup.decode (bs : List Byte) : ProxySetup :=
  ⟨(byteAt bs 0).getLsbD 0, byteAt bs 1, BitVec.ofNat 16 (readBE [byteAt bs 2, byteAt bs 3])⟩

/-! ### Image bytes of the Settings Store (R187, log 9) -/

def routeImage (t : RouteTable) : List Byte := t.toList.flatMap RouteEntry.encode
def keyMapImage (t : KeyMapTable) : List Byte := t.toList.flatMap KeyMapEntry.encode
def chordImage (t : ChordTable) : List Byte := t.toList.flatMap ChordEntry.encode
def curveImage (t : CurveTable) : List Byte := t.toList.flatMap beInt16
def settingsImage (t : SettingsTable) : List Byte := t.toList.flatMap beInt32
def proxyImage (t : ProxySetupTable) : List Byte := t.toList.flatMap ProxySetup.encode

end Sys2Proof.Machine
end

