-- ==== Sys2Proof/Machine/State.lean ====
section
/-! DEFINITION. The SV-48's state: plain data, every field with its value after a power-on reset as its default
(spec/INVENTORY by block; INVENTORY.md lists each with its rule). -/

namespace Sys2Proof.Machine

/-! ### Time (R1, 00_scope.md section 0.5) -/

/-- A moment: the millisecond time base, the supervisor seconds, and the ticks of 1/115200 second into the current
second (the model's own, logs 1 and 14). -/
structure Instant where
  ms : Word := 0
  sec : Word := 0
  sub : Nat := 0
  deriving DecidableEq, Repr

/-- A running timer: the time base when it started and its length in milliseconds (R75, R54, R110, R163, R171). -/
structure Timer where
  start : Word
  length : Nat
  deriving DecidableEq, Repr

/-! ### Frame Pool (R15) -/

inductive BufferState where
  | free
  | filling
  | working
  | queued
  | sending
  deriving DecidableEq, Repr

/-- A frame buffer's record (section 1.5). -/
structure Buffer where
  state : BufferState := .free
  port : Port := .host
  arrival : Instant := {}
  bytes : List Byte := []
  deriving DecidableEq, Repr

/-! ### Ports (R2 to R24) -/

/-- The line rates of R3. -/
inductive LineRate where
  | r9600
  | r19200
  | r38400
  | r57600
  | r115200
  deriving DecidableEq, Repr

/-- How the station of a frame stood against the stations current when its station character arrived (R6, R7).
On the Host Link `own` is a station equal to ownStation and `other` any further one. -/
inductive Address where
  | management
  | own
  | broadcast
  | other
  deriving DecidableEq, Repr

/-- The receive assembler (section 1.4). -/
inductive Assembler where
  | idle
  | skipping
  | filling (buffer : BufferId) (address : Address)
  deriving DecidableEq, Repr

/-- A port's receive side: assembler, whether a character has begun and is not yet taken (R3, log 36), silence in
twelfths of a bit time (log 3), current line rate. -/
structure Receiver where
  assembler : Assembler := .idle
  busy : Bool := false
  silence : Nat := 0
  rate : LineRate
  deriving DecidableEq, Repr

/-- The two halves of a Proxy Table entry (R61). -/
inductive HalfId where
  | half0
  | half1
  deriving DecidableEq, Repr

/-- The flags a composer sets in a composed reply; P is always set (R20). -/
structure ReplyFlags where
  b : Bool
  e : Bool
  s : Bool
  h : Bool
  deriving DecidableEq, Repr

/-- The payload source of a descriptor (R20). A key-list copy holds its number (log 21), its events as code and
age, and the overflow mark it carries. -/
inductive PayloadSource where
  | nothing
  | half (entry : ProxyId) (half : HalfId)
  | keyList (copy : Nat) (events : List (Byte × Byte)) (overflow : Bool)
  deriving DecidableEq, Repr

/-- A composed-reply descriptor (R20). -/
structure Descriptor where
  station : Byte
  topic : Byte
  tag : Byte
  flags : ReplyFlags
  source : PayloadSource
  deriving DecidableEq, Repr

/-- An item of the Field Transmit Queue (R19). -/
inductive FieldItem where
  | buffer (b : BufferId)
  | reply (d : Descriptor)
  deriving DecidableEq, Repr

/-- A transmission in progress: the item and the characters sent for it (R2, R4). -/
structure HostTransmission where
  buffer : BufferId
  line : List Character
  deriving DecidableEq, Repr

structure FieldTransmission where
  item : FieldItem
  line : List Character
  deriving DecidableEq, Repr

/-- The Host Port (R8 to R18, R21). -/
structure HostPort where
  rx : Receiver := { rate := .r115200 }
  sending : Option HostTransmission := none
  queue : List BufferId := []
  deriving DecidableEq, Repr

/-- The Field Port (R8 to R14, R19 to R23). -/
structure FieldPort where
  rx : Receiver := { rate := .r19200 }
  sending : Option FieldTransmission := none
  queue : List FieldItem := []
  deriving DecidableEq, Repr

/-! ### Exchange Tracker (R50) -/

/-- The fields of a Waiting or Late entry (R50). -/
structure Request where
  tag : Byte
  topic : Byte
  openTime : Word
  deadline : Word
  retries : BitVec 8
  deriving DecidableEq, Repr

/-- An Exchange Table entry (R50); a Late entry has its lateHold timer (R54). -/
inductive Exchange where
  | free
  | waiting (r : Request)
  | late (r : Request) (hold : Timer)
  deriving DecidableEq, Repr

/-! ### Proxy Store (R61, R69) -/

/-- One half of a Proxy Table entry; its length is the payload's (R61). -/
structure ProxyHalf where
  filled : Bool := false
  payload : List Byte := []
  stamp : Word := 0
  pins : Nat := 0
  deriving DecidableEq, Repr

/-- The runtime part of a Proxy Table entry (R61). -/
structure ProxyRuntime where
  active : HalfId := .half0
  half0 : ProxyHalf := {}
  half1 : ProxyHalf := {}
  deriving DecidableEq, Repr

/-- The mark of an event on the Field Key List (R69): an in-flight event belongs to one key-list copy. -/
inductive KeyMark where
  | pending
  | inFlight (copy : Nat)
  deriving DecidableEq, Repr

structure FieldKeyEvent where
  code : Byte
  stamp : Word
  mark : KeyMark
  deriving DecidableEq, Repr

/-- The Field Key List (R69). Copies numbered below `cutBelow` are cut off from it (R73, log 21). -/
structure FieldKeyList where
  events : List FieldKeyEvent := []
  overflow : Bool := false
  nextCopy : Nat := 0
  cutBelow : Nat := 0
  deriving DecidableEq, Repr

/-! ### Liveness Controller (R75, R94) -/

inductive Liveness where
  | off
  | coldHold
  | powering
  | booting
  | running
  | warned
  | resetting
  | cycling
  | stopping
  | hotHold
  | latched
  deriving DecidableEq, Repr

inductive RestartCause where
  | bootTimeout
  | watchdogExpiry
  | earlyFeed
  | operatorChord
  | managementCommand
  | overTemperature
  | externalReset
  | hostShutdown
  deriving DecidableEq, Repr

inductive RestartAction where
  | resetPulse
  | powerCycle
  | powerOff
  deriving DecidableEq, Repr

/-- A Restart Log record (R94). -/
structure LogRecord where
  sequence : Half
  cause : RestartCause
  action : RestartAction
  time : Word
  uptime : Nat
  boardTemp : Int
  lateReplies : BitVec 8
  counted : Bool
  deriving DecidableEq, Repr

/-- The Restart Log, oldest record first (R94). -/
structure RestartLog where
  records : List LogRecord := []
  nextSeq : Half := 0
  deriving DecidableEq, Repr

/-- The Liveness Controller without the Restart Log (R75, R82, R86, R94). -/
structure LivenessController where
  state : Liveness := .off
  enteredAt : Word := 0
  timer : Option Timer := none
  lastHeartbeat : Word := 0
  bootTime : Option Instant := none
  failedRestarts : Counter := 0
  lateReplies : BitVec 8 := 0
  earlyStreak : Nat := 0
  budget : List Word := []
  deriving DecidableEq, Repr

/-! ### Temperature Monitor (R102, R108, R113) -/

/-- A sensor channel (R102). -/
inductive Channel where
  | unseeded
  | valid (filtered : Int)
  | faulted (held : Option Int)
  deriving DecidableEq, Repr

inductive Readiness where
  | notReady
  | dwelling
  | ready
  deriving DecidableEq, Repr

structure TemperatureMonitor where
  board : Channel := .unseeded
  glass : Channel := .unseeded
  air : Channel := .unseeded
  readiness : Readiness := .notReady
  dwell : Option Timer := none
  hot : Bool := false
  fallbackStart : Option Word := none
  lastSample : Word := 0
  deriving DecidableEq, Repr

/-! ### Heat Drive (R119 to R138) -/

/-- On-steps of both channels and the gap (R119). -/
structure Allocation where
  onB : Nat := 0
  onG : Nat := 0
  g : Nat
  deriving DecidableEq, Repr

/-- A heater channel: integrator (R121), Blocked mark (R124), output (R126). -/
structure HeaterChannel where
  integrator : Int := 0
  blocked : Bool := false
  output : Bool := false
  deriving DecidableEq, Repr

structure HeatDrive where
  board : HeaterChannel := {}
  glass : HeaterChannel := {}
  current : Allocation := { g := 3 }
  pending : Allocation := { g := 3 }
  cutoffLine : Bool := false
  cutoffMarks : Bool := false
  periodStart : Word := 0
  demandTaken : Bool := false
  deriving DecidableEq, Repr

/-- The phase of a fan in Kicking (R134): `kick n` has `n` boundaries left. -/
inductive KickPhase where
  | kick (left : Nat)
  | watch
  deriving DecidableEq, Repr

inductive FanState where
  | off
  | running
  | kicking (phase : KickPhase)
  | failed
  deriving DecidableEq, Repr

inductive LearnState where
  | idle
  | learning (timer : Timer)
  | abandoned
  deriving DecidableEq, Repr

structure FanDrive where
  state : FanState := .off
  stallRun : Nat := 0
  goodRun : Nat := 0
  kicks : Nat := 0
  speed : Nat := 0
  pulses : Nat := 0
  commanded : Nat := 0
  runningMark : Bool := false
  airflowClock : Nat := 0
  clogIndex : Option Int := none
  clogWarning : Bool := false
  learn : LearnState := .idle
  deriving DecidableEq, Repr

/-! ### Keypad Scanner and Key Event Unit (R145, R153, R161, R166, R171) -/

inductive DebounceSet where
  | normal
  | cold
  deriving DecidableEq, Repr

/-- A key's state with its sample count and, while its press stands reported, its press time (R145). -/
inductive KeyState where
  | up
  | pressing (count : Nat)
  | down (pressTime : Word)
  | releasing (count : Nat) (pressTime : Word)
  | stuck (count : Nat)
  | ambiguous
  deriving DecidableEq, Repr

structure Keypad where
  keys : Vector KeyState 48 := Vector.replicate 48 .up
  flooded : Bool := false
  quietStart : Option Word := none
  lastSet : Option DebounceSet := none
  lastSample : Word := 0
  interval : Nat := 5
  deriving DecidableEq, Repr

inductive Edge where
  | press
  | release
  | rep
  deriving DecidableEq, Repr

/-- A key event record (R164). -/
structure KeyEvent where
  code : Byte
  edge : Edge
  synthesized : Bool
  stamp : Half
  lost : Bool
  deriving DecidableEq, Repr

/-- The record of a reported key (R161). -/
structure KeyRecord where
  code : Byte
  rep : Bool
  timer : Option Timer
  deriving DecidableEq, Repr

inductive ChordState where
  | idle
  | holding (timer : Timer)
  | fired
  deriving DecidableEq, Repr

structure KeyEventUnit where
  records : Vector (Option KeyRecord) 48 := Vector.replicate 48 none
  queue : List KeyEvent := []
  lossPending : Bool := false
  chords : Vector ChordState 8 := Vector.replicate 8 .idle
  deriving DecidableEq, Repr

/-! ### Management Unit, tables and store (R177 to R190) -/

/-- The live and the staging copy of a table (section 9.4). -/
structure Staged (α : Type) where
  live : α
  staging : α
  deriving DecidableEq, Repr

/-- A table with staging equal to live (R188). -/
def Staged.both {α : Type} (t : α) : Staged α := ⟨t, t⟩

structure Tables where
  route : Staged RouteTable := .both factoryRoutes
  hits : Vector Counter 32 := Vector.replicate 32 0
  keyMap : Staged KeyMapTable := .both factoryKeyMap
  chord : Staged ChordTable := .both factoryChords
  curveA : Staged CurveTable := .both factoryCurveA
  curveB : Staged CurveTable := .both factoryCurveB
  settings : Staged SettingsTable := .both factorySettings
  proxy : Staged ProxySetupTable := .both factoryProxy
  deriving DecidableEq, Repr

/-- An image of the Settings Store: a table's contents and the CRC-16 over the image bytes (R187). -/
structure StoredImage (α : Type) where
  contents : α
  check : Half
  deriving DecidableEq, Repr

/-- The image captured by a COMMIT with store 1, being written (R187). -/
inductive StoreJob where
  | route (t : RouteTable)
  | keyMap (t : KeyMapTable)
  | chord (t : ChordTable)
  | curveA (t : CurveTable)
  | curveB (t : CurveTable)
  | settings (t : SettingsTable)
  | proxy (t : ProxySetupTable)
  deriving DecidableEq, Repr

/-- The Settings Store (R187). `none` is an image never written or cut while it was written (R188). -/
structure Store where
  route : Option (StoredImage RouteTable) := none
  keyMap : Option (StoredImage KeyMapTable) := none
  chord : Option (StoredImage ChordTable) := none
  curveA : Option (StoredImage CurveTable) := none
  curveB : Option (StoredImage CurveTable) := none
  settings : Option (StoredImage SettingsTable) := none
  proxy : Option (StoredImage ProxySetupTable) := none
  writing : Option StoreJob := none
  deriving DecidableEq, Repr

/-- The Management Unit's marks (R179, R180, R188, R189) and the command frames handed to it (log 6). -/
structure Management where
  frozen : Bool := false
  permit : Option Timer := none
  waiting : List BufferId := []
  resetPending : Option BufferId := none
  defaultsInUse : BitVec 7 := 0x7F
  deriving DecidableEq, Repr

/-- The seven counter groups of READ COUNTERS (R182). -/
structure Counters where
  links : Vector Counter 25 := Vector.replicate 25 0
  routing : Vector Counter 7 := Vector.replicate 7 0
  exchanges : Vector Counter 9 := Vector.replicate 9 0
  proxy : Vector Counter 12 := Vector.replicate 12 0
  keys : Vector Counter 18 := Vector.replicate 18 0
  thermal : Vector Counter 22 := Vector.replicate 22 0
  liveness : Vector Counter 11 := Vector.replicate 11 0
  deriving DecidableEq, Repr

/-- The whole machine. `pending` is the queue of commands that wait, first in, first out. -/
structure State where
  pending : List Instr := []
  clock : Instant := {}
  pool : Vector Buffer 24 := Vector.replicate 24 {}
  hostPort : HostPort := {}
  fieldPort : FieldPort := {}
  noticeNo : Byte := 0
  flags : BitVec 8 := 0
  exchanges : Vector Exchange 8 := Vector.replicate 8 .free
  proxy : Vector ProxyRuntime 16 := Vector.replicate 16 {}
  keyList : FieldKeyList := {}
  live : LivenessController := {}
  log : RestartLog := {}
  temp : TemperatureMonitor := {}
  heat : HeatDrive := {}
  fan : FanDrive := {}
  keypad : Keypad := {}
  keyUnit : KeyEventUnit := {}
  mgmt : Management := {}
  tables : Tables := {}
  store : Store := {}
  counters : Counters := {}
  deriving DecidableEq, Repr

/-- The spec gives the part no fault that stops it: nothing raises one (log 28). -/
inductive Fault where
  deriving DecidableEq, Repr

/-- Why a command has no meaning. -/
inductive Refusal where
  /-- Raised by exec for a command that has no meaning yet; safe, because the run stops. -/
  | notModelled (mnemonic : String)
  deriving DecidableEq, Repr

/-- The part right after a power-on reset with a Settings Store that was never written and an inactive cutoff
line (log 15): every table at its factory defaults (R188), every block at its initial state, and, autoStart being
yes, liveness in COLD HOLD with the fallback start at the reset (R77, R98, R117). -/
def State.reset : State :=
  { live := { state := .coldHold }, temp := { fallbackStart := some 0 } }

end Sys2Proof.Machine
end

