-- ==== Sys2Proof/Machine/Counters.lean ====
section
/-! DEFINITION. The event counters by name and number (R182: rows of the defining tables in order, the Host Port's
counter before the Field Port's). -/

namespace Sys2Proof.Machine

/-- One of the 104 counters: its group and its number in the group (R182). -/
inductive CounterId where
  | links (i : Fin 25)
  | routing (i : Fin 7)
  | exchanges (i : Fin 9)
  | proxy (i : Fin 12)
  | keys (i : Fin 18)
  | thermal (i : Fin 22)
  | liveness (i : Fin 11)
  deriving DecidableEq, Repr

/-- A counter goes up by `n` and saturates at 65535 (00_scope.md "Counters"). -/
def satAdd (c : Counter) (n : Nat) : Counter := BitVec.ofNat 16 (min 65535 (c.toNat + n))

def Counters.get (c : Counters) : CounterId → Counter
  | .links i => c.links[i]
  | .routing i => c.routing[i]
  | .exchanges i => c.exchanges[i]
  | .proxy i => c.proxy[i]
  | .keys i => c.keys[i]
  | .thermal i => c.thermal[i]
  | .liveness i => c.liveness[i]

def Counters.set (c : Counters) (id : CounterId) (v : Counter) : Counters :=
  match id with
  | .links i => { c with links := c.links.set i v }
  | .routing i => { c with routing := c.routing.set i v }
  | .exchanges i => { c with exchanges := c.exchanges.set i v }
  | .proxy i => { c with proxy := c.proxy.set i v }
  | .keys i => { c with keys := c.keys.set i v }
  | .thermal i => { c with thermal := c.thermal.set i v }
  | .liveness i => { c with liveness := c.liveness.set i v }

/-- The counter goes up by `n`. -/
def bumpBy (id : CounterId) (n : Nat) (s : State) : State :=
  { s with counters := s.counters.set id (satAdd (s.counters.get id) n) }

/-- The counter goes up by one. -/
def bump (id : CounterId) (s : State) : State := bumpBy id 1 s

/-! ### Links group (R25) -/

/-- R14 -/
def Ctr.validFrames : Port → CounterId
  | .host => .links 0
  | .field => .links 1

/-- R24 -/
def Ctr.framesSent : Port → CounterId
  | .host => .links 2
  | .field => .links 3

/-- R9 -/
def Ctr.strayCharacters : Port → CounterId
  | .host => .links 4
  | .field => .links 5

/-- R12 -/
def Ctr.framingErrors : Port → CounterId
  | .host => .links 6
  | .field => .links 7

/-- R10 -/
def Ctr.formatErrors : Port → CounterId
  | .host => .links 8
  | .field => .links 9

/-- R11 -/
def Ctr.cutFrames : Port → CounterId
  | .host => .links 10
  | .field => .links 11

/-- R13 -/
def Ctr.gapErrors : Port → CounterId
  | .host => .links 12
  | .field => .links 13

/-- R14 -/
def Ctr.checkErrors : Port → CounterId
  | .host => .links 14
  | .field => .links 15

/-- R8 -/
def Ctr.noBufferDiscards : Port → CounterId
  | .host => .links 16
  | .field => .links 17

/-- R7 -/
def Ctr.misaddressedFrames : Port → CounterId
  | .host => .links 18
  | .field => .links 19

/-- R17 -/
def Ctr.droppedNotices : CounterId := .links 20

/-- R18, R19 -/
def Ctr.droppedManagementReplies : Port → CounterId
  | .host => .links 21
  | .field => .links 22

/-- R19 -/
def Ctr.droppedForwardedReplies : CounterId := .links 23

/-- R19 -/
def Ctr.droppedComposedReplies : CounterId := .links 24

/-! ### Routing group (section 2.9) -/

/-- R34 -/
def Ctr.routingKeyListRequests : CounterId := .routing 0

/-- R36 -/
def Ctr.routingUnsolicitedReplies : CounterId := .routing 1

/-- R39 -/
def Ctr.routingDefaultEmptyReplies : CounterId := .routing 2

/-- R39 -/
def Ctr.routingDefaultDrops : CounterId := .routing 3

/-- R44 -/
def Ctr.routingRouteDrops : CounterId := .routing 4

/-- R41 -/
def Ctr.routingRefusedBroadcasts : CounterId := .routing 5

/-- R41 -/
def Ctr.routingUnforwardableFrames : CounterId := .routing 6

/-! ### Exchanges group (R74) -/

/-- R51 -/
def Ctr.exchangesForwardedRequests : CounterId := .exchanges 0

/-- R51 -/
def Ctr.exchangesReopenedExchanges : CounterId := .exchanges 1

/-- R52 -/
def Ctr.exchangesRetriesAbsorbed : CounterId := .exchanges 2

/-- R53 -/
def Ctr.exchangesAnsweredExchanges : CounterId := .exchanges 3

/-- R54 -/
def Ctr.exchangesExpiries : CounterId := .exchanges 4

/-- R57 -/
def Ctr.exchangesExpiriesOnLeavingHostUp : CounterId := .exchanges 5

/-- R54 -/
def Ctr.exchangesRetriesBeforeExpiry : CounterId := .exchanges 6

/-- R55 -/
def Ctr.exchangesLateReplies : CounterId := .exchanges 7

/-- R58 -/
def Ctr.exchangesExchangeFullReplies : CounterId := .exchanges 8

/-! ### Proxy group (R74) -/

/-- R62 -/
def Ctr.proxyProxyReplies : CounterId := .proxy 0

/-- R62 -/
def Ctr.proxyStaleReplies : CounterId := .proxy 1

/-- R62 -/
def Ctr.proxyEmptyReplies : CounterId := .proxy 2

/-- R62 -/
def Ctr.proxyPinLimitReplies : CounterId := .proxy 3

/-- R64 -/
def Ctr.proxyCaptures : CounterId := .proxy 4

/-- R64 -/
def Ctr.proxyCapturesSkipped : CounterId := .proxy 5

/-- R64 -/
def Ctr.proxyCapturesWithoutEntry : CounterId := .proxy 6

/-- R65 -/
def Ctr.proxyProxyWrites : CounterId := .proxy 7

/-- R65 -/
def Ctr.proxyBusyProxyWrites : CounterId := .proxy 8

/-- R69 -/
def Ctr.proxyKeyListOverflows : CounterId := .proxy 9

/-- R71 -/
def Ctr.proxyKeyEventsDelivered : CounterId := .proxy 10

/-- R73 -/
def Ctr.proxyKeyEventsDroppedAtRunning : CounterId := .proxy 11

/-! ### Keys group (R157, R174) -/

/-- R146 -/
def Ctr.keysShortPresses : CounterId := .keys 0

/-- R148 -/
def Ctr.keysGhostKeys : CounterId := .keys 1

/-- R151 -/
def Ctr.keysStuckKeys : CounterId := .keys 2

/-- R152 -/
def Ctr.keysStuckRecoveries : CounterId := .keys 3

/-- R153 -/
def Ctr.keysFloods : CounterId := .keys 4

/-- R153 -/
def Ctr.keysSynthesizedReleases : CounterId := .keys 5

/-- R144 -/
def Ctr.keysDebounceSetSwitches : CounterId := .keys 6

/-- R161 -/
def Ctr.keysPressEvents : CounterId := .keys 7

/-- R161 -/
def Ctr.keysPressesNotReported : CounterId := .keys 8

/-- R162 -/
def Ctr.keysReleaseEvents : CounterId := .keys 9

/-- R163 -/
def Ctr.keysRepeatEvents : CounterId := .keys 10

/-- R166 -/
def Ctr.keysQueueLosses : CounterId := .keys 11

/-- R167 -/
def Ctr.keysKeyNotices : CounterId := .keys 12

/-- R168 -/
def Ctr.keysEventsFlushed : CounterId := .keys 13

/-- R169 -/
def Ctr.keysEventsDiscardedHostDown : CounterId := .keys 14

/-- R171 -/
def Ctr.keysChordsAbandoned : CounterId := .keys 15

/-- R172 -/
def Ctr.keysChordActionsTaken : CounterId := .keys 16

/-- R172 -/
def Ctr.keysChordsRefused : CounterId := .keys 17

/-! ### Thermal group (R116, R140) -/

/-- R103 -/
def Ctr.thermalBoardFaults : CounterId := .thermal 0

/-- R103 -/
def Ctr.thermalGlassFaults : CounterId := .thermal 1

/-- R103 -/
def Ctr.thermalAirFaults : CounterId := .thermal 2

/-- R103 -/
def Ctr.thermalBoardRecoveries : CounterId := .thermal 3

/-- R103 -/
def Ctr.thermalGlassRecoveries : CounterId := .thermal 4

/-- R103 -/
def Ctr.thermalAirRecoveries : CounterId := .thermal 5

/-- R107 -/
def Ctr.thermalStandInSamples : CounterId := .thermal 6

/-- R108 -/
def Ctr.thermalFallbackEntries : CounterId := .thermal 7

/-- R108 -/
def Ctr.thermalFallbackGrants : CounterId := .thermal 8

/-- R110 -/
def Ctr.thermalDwellsAbandoned : CounterId := .thermal 9

/-- R111 -/
def Ctr.thermalReadinessLosses : CounterId := .thermal 10

/-- R113 -/
def Ctr.thermalHotRaised : CounterId := .thermal 11

/-- R114 -/
def Ctr.thermalHotClearedWithoutValue : CounterId := .thermal 12

/-- R124 -/
def Ctr.thermalBoardBlocks : CounterId := .thermal 13

/-- R124 -/
def Ctr.thermalGlassBlocks : CounterId := .thermal 14

/-- R128 -/
def Ctr.thermalCutoffActivations : CounterId := .thermal 15

/-- R134 -/
def Ctr.thermalFanKicks : CounterId := .thermal 16

/-- R135 -/
def Ctr.thermalFanFailures : CounterId := .thermal 17

/-- R135 -/
def Ctr.thermalFanRecoveries : CounterId := .thermal 18

/-- R136 -/
def Ctr.thermalClogWarnings : CounterId := .thermal 19

/-- R138 -/
def Ctr.thermalLearnsCompleted : CounterId := .thermal 20

/-- R138 -/
def Ctr.thermalLearnsAbandoned : CounterId := .thermal 21

/-! ### Liveness group (R97) -/

/-- R84 -/
def Ctr.livenessFeedsAccepted : CounterId := .liveness 0

/-- R84 -/
def Ctr.livenessEarlyFeeds : CounterId := .liveness 1

/-- R84 -/
def Ctr.livenessFeedsInWrongState : CounterId := .liveness 2

/-- R85 -/
def Ctr.livenessTrafficHeartbeats : CounterId := .liveness 3

/-- R83 -/
def Ctr.livenessWarnings : CounterId := .liveness 4

/-- R86 -/
def Ctr.livenessCountedRestarts : CounterId := .liveness 5

/-- R87 -/
def Ctr.livenessLatches : CounterId := .liveness 6

/-- R86 -/
def Ctr.livenessBudgetEntriesExpired : CounterId := .liveness 7

/-- R90 -/
def Ctr.livenessUncountedRestarts : CounterId := .liveness 8

/-- R90 -/
def Ctr.livenessIgnoredOperatorRequests : CounterId := .liveness 9

/-- R92 -/
def Ctr.livenessOverTemperaturePowerOffs : CounterId := .liveness 10

end Sys2Proof.Machine
end

