-- ==== Sys2Proof/Machine/Ops.lean ====
section
/-! DEFINITION. The operations every block shares: time and timers, the liveness predicates, the frame pool,
the transmit queues, frames and notices (R1, R4, R5, R15 to R19, R167). -/

namespace Sys2Proof.Machine

/-! ### Time -/

/-- The whole milliseconds in a number of ticks of 1/115200 second: 576 ticks are 5 milliseconds (log 1). -/
def wholeMillis (ticks : Nat) : Nat := ticks * 5 / 576

/-- One tick of 1/115200 second later (R1, log 1): the time base counts the milliseconds that became whole, and the
second is up after 115200 ticks. -/
def Instant.tick (t : Instant) : Instant :=
  if 115199 ≤ t.sub then ⟨t.ms + 1, t.sec + 1, 0⟩
  else ⟨t.ms + BitVec.ofNat 32 (wholeMillis (t.sub + 1) - wholeMillis t.sub), t.sec, t.sub + 1⟩

/-- The milliseconds from one value of the time base to a later one (R1). -/
def elapsed (since now : Word) : Nat := (now - since).toNat

/-- The timer has run its length. -/
def Timer.due (t : Timer) (now : Word) : Bool := t.length ≤ elapsed t.start now

/-- A timer is running and has run its length (log 2). -/
def timerDue (t : Option Timer) (now : Word) : Bool :=
  match t with
  | some t => t.due now
  | none => false

/-- The milliseconds a running timer has left. -/
def Timer.remaining (t : Timer) (now : Word) : Nat := t.length - elapsed t.start now

/-- A timer that starts at `t` for `length` milliseconds. -/
def startTimer (t : Instant) (length : Nat) : Timer := ⟨t.ms, length⟩

/-! ### Liveness predicates and outputs (04 section 4.1) -/

/-- HostUp: RUNNING or WARNED. -/
def Liveness.isHostUp : Liveness → Bool
  | .running | .warned => true
  | _ => false

/-- HostStarting: POWERING or BOOTING. -/
def Liveness.isStarting : Liveness → Bool
  | .powering | .booting => true
  | _ => false

/-- The six powered states (R76). -/
def Liveness.isPowered : Liveness → Bool
  | .powering | .booting | .running | .warned | .resetting | .stopping => true
  | _ => false

/-- The states in which notices are composed (R17). -/
def Liveness.composesNotices : Liveness → Bool
  | .booting | .running | .warned => true
  | _ => false

/-- The liveness state codes of section 1.10. -/
def Liveness.code : Liveness → Nat
  | .off => 0
  | .coldHold => 1
  | .powering => 2
  | .booting => 3
  | .running => 4
  | .warned => 5
  | .resetting => 6
  | .cycling => 7
  | .stopping => 8
  | .hotHold => 9
  | .latched => 10

def hostUp (s : State) : Bool := s.live.state.isHostUp

/-- The host power enable output, which is also the Heat Drive's powered state (R76, R123). -/
def hostPowerEnable (s : State) : Bool := s.live.state.isPowered

/-- The host reset output (R76). -/
def hostReset (s : State) : Bool := s.live.state == .powering || s.live.state == .resetting

/-- The field direction output, asserted exactly while the Field Port sends (R23). -/
def fieldDirection (s : State) : Bool := s.fieldPort.sending.isSome

/-- The live Settings table. -/
def settings (s : State) : SettingsTable := s.tables.settings.live

/-- ownStation as it stands (R6). -/
def ownStation (s : State) : Byte := byte (settings s).ownStation.toNat

/-- mgmtStation as it stands (R6). -/
def mgmtStation (s : State) : Byte := byte (settings s).mgmtStation.toNat

/-! ### Frames (section 1.2) -/

/-- The class bits of a control byte (R4). -/
def FrameClass.code : FrameClass → Nat
  | .request => 0
  | .reply => 1
  | .notice => 2
  | .command => 3

/-- Bytes followed by their check, high byte first (R5). -/
def withCheck (body : List Byte) : List Byte := body ++ be16 (crc16 body).toNat

/-- A whole frame as its bytes (section 1.2). -/
def frameBytes (station : Byte) (control : Nat) (topic tag : Byte) (payload : List Byte) : List Byte :=
  withCheck ([station, byte control, topic, tag, byte payload.length] ++ payload)

/-- The bytes of a frame as sent: control bit 2 is 0 and the check is computed over the bytes as sent (R4). -/
def bytesAsSent (bs : List Byte) : List Byte :=
  withCheck ((bs.take (5 + (byteAt bs 4).toNat)).set 1 (byteAt bs 1 &&& 0xFB#8))

/-- The characters of a frame: the marker bit is 1 on the first and 0 on the others, the stop bit is 1 (R2). -/
def onLine : List Byte → List Character
  | [] => []
  | b :: bs => ⟨b, true, true⟩ :: bs.map fun c => ⟨c, false, true⟩

/-! ### The frame pool (R15, R16) -/

def setBuffer (b : BufferId) (f : Buffer) (s : State) : State := { s with pool := s.pool.set b f }

def isFree (s : State) (b : BufferId) : Bool := s.pool[b].state == .free

/-- The number of Free buffers (R15). -/
def freeCount (s : State) : Nat := (List.finRange 24).countP (isFree s)

/-- The Free buffer that a claim takes: the lowest-numbered one (log 5). -/
def firstFree (s : State) : Option BufferId := (List.finRange 24).find? (isFree s)

/-! ### Transmit queues (R18, R19) -/

def hostQueueRoom (s : State) : Bool := s.hostPort.queue.length < 16

def fieldQueueRoom (s : State) : Bool := s.fieldPort.queue.length < 16

/-- A buffer joins the tail of the Host Transmit Queue and becomes Queued (R18). -/
def enqueueHost (b : BufferId) (s : State) : State :=
  let s := setBuffer b { s.pool[b] with state := .queued } s
  { s with hostPort.queue := s.hostPort.queue ++ [b] }

/-- A buffer joins the tail of the Field Transmit Queue and becomes Queued (R19). -/
def enqueueFieldBuffer (b : BufferId) (s : State) : State :=
  let s := setBuffer b { s.pool[b] with state := .queued } s
  { s with fieldPort.queue := s.fieldPort.queue ++ [.buffer b] }

/-- A descriptor joins the tail of the Field Transmit Queue; it holds no buffer (R19). -/
def enqueueReply (d : Descriptor) (s : State) : State :=
  { s with fieldPort.queue := s.fieldPort.queue ++ [.reply d] }

/-! ### Notices (R17, section 1.10) -/

/-- A notice written into a buffer and queued for the host, with its notice number as tag (R17). -/
def queueNotice (b : BufferId) (topic : Byte) (payload : List Byte) (s : State) : State :=
  let s := setBuffer b { state := .working, bytes := frameBytes 255 2 topic s.noticeNo payload } s
  { enqueueHost b s with noticeNo := s.noticeNo + 1 }

/-- A notice other than KEY is composed, or dropped for want of a buffer or of queue room; outside BOOTING, RUNNING
and WARNED it is not composed at all (R17). -/
def composeNotice (topic : Byte) (payload : List Byte) (s : State) : State :=
  if s.live.state.composesNotices then
    match firstFree s, hostQueueRoom s with
    | some b, true => queueNotice b topic payload s
    | _, _ => bump Ctr.droppedNotices { s with noticeNo := s.noticeNo + 1 }
  else s

def topicKey : Byte := 0xC0
def topicState : Byte := 0xC1
def topicLate : Byte := 0xC2
def topicThermal : Byte := 0xC3
def topicFan : Byte := 0xC4
def topicKeypad : Byte := 0xC5
def topicChord : Byte := 0xC6

/-! ### KEY notices (R167) -/

/-- The edge codes of section 1.10. -/
def Edge.code : Edge → Nat
  | .press => 0
  | .release => 1
  | .rep => 2

/-- The four bytes of an event in a KEY notice (section 1.10). -/
def KeyEvent.encode (e : KeyEvent) : List Byte :=
  [e.code, byte (e.edge.code + 4 * bit e.synthesized + 8 * bit e.lost)] ++ be16 e.stamp.toNat

/-- The four conditions under which a KEY notice is composed (R167). -/
def keyNoticeReady (s : State) : Bool :=
  hostUp s && !s.keyUnit.queue.isEmpty && (firstFree s).isSome && hostQueueRoom s

/-- One KEY notice takes the up to 8 oldest records (R167). -/
def composeKeyNotice (s : State) : State :=
  match firstFree s with
  | some b =>
    let taken := s.keyUnit.queue.take 8
    let s := { s with keyUnit.queue := s.keyUnit.queue.drop 8 }
    bump Ctr.keysKeyNotices (queueNotice b topicKey (taken.flatMap KeyEvent.encode) s)
  | none => s

/-- KEY notices are composed until the queue is empty or a condition fails (R167); each one takes at least one
record, so as many turns as there are records are enough. -/
def keyNoticeTurns : Nat → State → State
  | 0, s => s
  | n + 1, s => if keyNoticeReady s then keyNoticeTurns n (composeKeyNotice s) else s

/-- The composition of R167, taken at the moment its four conditions may have come about (log 10). -/
def composeKeyNotices (s : State) : State := keyNoticeTurns s.keyUnit.queue.length s

/-- A buffer returns to Free, and KEY notices that waited for a buffer are composed (R16, R167). -/
def releaseBuffer (b : BufferId) (s : State) : State := composeKeyNotices (setBuffer b {} s)

end Sys2Proof.Machine
end

