-- ==== Sys2Proof/Machine/Flags.lean ====
section
/-! DEFINITION. The Condition Unit: flag patterns and conditions (R28 to R32), and the facts of other blocks that
conditions read. -/

namespace Sys2Proof.Machine

/-! ### Flag patterns (R29) -/

/-- One flag after its two pattern bits: 00 no change, 01 set, 10 clear, 11 invert (R29). -/
def flagAfter (lowBit highBit flag : Bool) : Bool :=
  match highBit, lowBit with
  | false, false => flag
  | false, true => true
  | true, false => false
  | true, true => !flag

/-- Flag `i` after a pattern, from the flags standing before it (R29). -/
def patternedFlag (p : Half) (f : BitVec 8) (i : Nat) : Bool :=
  flagAfter (p.getLsbD (2 * i)) (p.getLsbD (2 * i + 1)) (f.getLsbD i)

/-- A flag pattern applied as one whole update (R29). -/
def applyPattern (p : Half) (f : BitVec 8) : BitVec 8 :=
  BitVec.ofBoolListLE [patternedFlag p f 0, patternedFlag p f 1, patternedFlag p f 2, patternedFlag p f 3,
    patternedFlag p f 4, patternedFlag p f 5, patternedFlag p f 6, patternedFlag p f 7]

/-- The flag set after a pattern (R30). -/
def patternFlags (p : Half) (s : State) : State := { s with flags := applyPattern p s.flags }

/-! ### Working values (R107) -/

/-- The filtered value of a usable channel: one that is Valid (R107). -/
def Channel.usable : Channel → Option Int
  | .valid f => some f
  | _ => none

/-- Working Board: the Board value, else the Air value, else absent (R107). -/
def workingBoard (s : State) : Option Int := s.temp.board.usable <|> s.temp.air.usable

/-- Working Glass: the Glass value, else the Air value, else absent (R107). -/
def workingGlass (s : State) : Option Int := s.temp.glass.usable <|> s.temp.air.usable

/-- Cold fallback: a working value is absent (R108). -/
def coldFallback (s : State) : Bool := (workingBoard s).isNone || (workingGlass s).isNone

/-! ### Conditions (R31) -/

/-- The fact that a selector names, in the state as it stands (R31). -/
def selectorFact (s : State) (n : Nat) : Bool :=
  match n with
  | 8 => hostUp s
  | 9 => s.live.state.isStarting
  | 10 => s.temp.readiness == .ready
  | 11 => s.mgmt.permit.isSome
  | 12 => !s.keypad.flooded
  | 13 => s.heat.cutoffLine
  | 14 => s.mgmt.frozen
  | 15 => true
  | n => s.flags.getLsbD n

/-- A condition is the selected fact, inverted if its sense bit is 1 (R31). -/
def Condition.holds (c : Condition) (s : State) : Bool := selectorFact s c.selector.toNat ^^ c.sense

end Sys2Proof.Machine
end

