-- ==== Sys2Proof/Machine/Operands.lean ====
section
/-! DEFINITION. Where a command's operands are read: the fields of a received frame (R4) and the command frames
that wait at the Management Unit (R177). -/

namespace Sys2Proof.Machine

/-! ### Fields of a received frame (section 1.2, R4) -/

/-- The station byte. -/
def frameStation (bs : List Byte) : Byte := byteAt bs 0

/-- The class of control bits 1 to 0 (R4). -/
def frameClass (bs : List Byte) : FrameClass :=
  match ((byteAt bs 1).setWidth 2).toNat with
  | 0 => .request
  | 1 => .reply
  | 2 => .notice
  | _ => .command

def frameTopic (bs : List Byte) : Byte := byteAt bs 2

def frameTag (bs : List Byte) : Byte := byteAt bs 3

/-- The payload length of byte 4. -/
def frameLength (bs : List Byte) : Nat := (byteAt bs 4).toNat

def framePayload (bs : List Byte) : List Byte := (bs.drop 5).take (frameLength bs)

/-- A frame is complete when 7 + length bytes have been received (R4). -/
def frameIsComplete (bs : List Byte) : Bool := 5 ≤ bs.length && bs.length == 7 + frameLength bs

/-- The check bytes agree with the check over bytes 0 to 4 + length as received (R5). -/
def checkAgrees (bs : List Byte) : Bool :=
  be16 (crc16 (bs.take (5 + frameLength bs))).toNat == bs.drop (5 + frameLength bs)

/-! ### Receivers by port -/

def State.rx (s : State) : Port → Receiver
  | .host => s.hostPort.rx
  | .field => s.fieldPort.rx

def setRx (p : Port) (r : Receiver) (s : State) : State :=
  match p with
  | .host => { s with hostPort.rx := r }
  | .field => { s with fieldPort.rx := r }

def setAssembler (p : Port) (a : Assembler) (s : State) : State := setRx p { s.rx p with assembler := a } s

/-- The Field Port's receiver is deaf while the port sends (R23). -/
def isDeaf (s : State) : Port → Bool
  | .host => false
  | .field => fieldDirection s

/-- The bit rate of a line rate. -/
def LineRate.bps : LineRate → Nat
  | .r9600 => 9600
  | .r19200 => 19200
  | .r38400 => 38400
  | .r57600 => 57600
  | .r115200 => 115200

/-- The line rate of a setting's code (R186). -/
def LineRate.ofCode (i : Int) : LineRate :=
  if i ≤ 0 then .r9600 else if i = 1 then .r19200 else if i = 2 then .r38400
  else if i = 3 then .r57600 else .r115200

/-- The twelfths of a bit time in a tick of 1/115200 second (log 3). -/
def LineRate.perTick (r : LineRate) : Nat := r.bps / 9600

/-- The line is silent and has been for more than 33 bit times, 396 twelfths (R3, R9, R13). -/
def silentOver33 (r : Receiver) : Bool := !r.busy && 396 < r.silence

/-- The line is quiet and has been for at least 22 bit times, 264 twelfths (R3, R22). -/
def silentFor22 (r : Receiver) : Bool := !r.busy && 264 ≤ r.silence

/-! ### Management commands (R177) -/

/-- A command frame taken by the Management Unit: its buffer, its port and moment of arrival, its tag and its
payload (R177). -/
structure Command where
  buffer : BufferId
  port : Port
  arrival : Instant
  tag : Byte
  args : List Byte
  deriving DecidableEq, Repr

/-- The oldest command frame from `p` that waits at the Management Unit (log 6). -/
def waitingCommand (p : Port) (s : State) : Option BufferId :=
  s.mgmt.waiting.find? fun b => s.pool[b].port == p

/-- The command in a buffer. -/
def commandIn (b : BufferId) (s : State) : Command :=
  let f := s.pool[b]
  ⟨b, f.port, f.arrival, frameTag f.bytes, framePayload f.bytes⟩

/-- The Management Unit takes up the oldest command frame from `p` if its command code is `code`. -/
def takeCommand (code : Nat) (p : Port) (s : State) : Option (Command × State) :=
  match waitingCommand p s with
  | some b =>
    if (frameTopic s.pool[b].bytes).toNat = code then
      some (commandIn b s, { s with mgmt.waiting := s.mgmt.waiting.erase b })
    else none
  | none => none

end Sys2Proof.Machine
end

