-- ==== Sys2Proof/Machine/ProxyStore.lean ====
section
/-! DEFINITION. The Proxy Store: composed replies, pins, captures and the Field Key List (R20, R61 to R73). -/

namespace Sys2Proof.Machine

/-! ### Proxy halves (R61) -/

def HalfId.other : HalfId → HalfId
  | .half0 => .half1
  | .half1 => .half0

def ProxyRuntime.get (r : ProxyRuntime) : HalfId → ProxyHalf
  | .half0 => r.half0
  | .half1 => r.half1

def ProxyRuntime.set (r : ProxyRuntime) (h : HalfId) (x : ProxyHalf) : ProxyRuntime :=
  match h with
  | .half0 => { r with half0 := x }
  | .half1 => { r with half1 := x }

def setProxy (e : ProxyId) (r : ProxyRuntime) (s : State) : State := { s with proxy := s.proxy.set e r }

/-- The valid entry of a topic: the one with the lowest index (R61, 00_scope.md "Lowest index first"). -/
def proxyFor (topic : Byte) (s : State) : Option ProxyId :=
  (List.finRange 16).find? fun e =>
    s.tables.proxy.live[e].valid && s.tables.proxy.live[e].topic == topic

def pinHalf (e : ProxyId) (h : HalfId) (s : State) : State :=
  let r := s.proxy[e]
  setProxy e (r.set h { r.get h with pins := (r.get h).pins + 1 }) s

/-- The pin count goes down by one (R63). A half that a commit emptied while it was pinned (R67) keeps its length and
stamp after its last pin: the spec says only that they stay while it is pinned, and this is the model's choice
(log 37). -/
def unpinHalf (e : ProxyId) (h : HalfId) (s : State) : State :=
  let r := s.proxy[e]
  setProxy e (r.set h { r.get h with pins := (r.get h).pins - 1 }) s

/-- The inactive half receives a payload, becomes Filled and is made active (R64, R65). -/
def fillInactive (e : ProxyId) (payload : List Byte) (t : Instant) (s : State) : State :=
  let r := s.proxy[e]
  let h := r.active.other
  setProxy e { r.set h { filled := true, payload := payload, stamp := t.sec, pins := 0 } with active := h } s

/-- The inactive half of an entry is pinned (R63). -/
def inactivePinned (e : ProxyId) (s : State) : Bool :=
  0 < (s.proxy[e].get s.proxy[e].active.other).pins

/-! ### The Field Key List (R69 to R73) -/

/-- A field-relevant Press joins the list as pending, or is discarded with the overflow mark set (R69). -/
def offerFieldKey (code : Byte) (t : Instant) (s : State) : State :=
  if s.keyList.events.length < 8 then
    { s with keyList.events := s.keyList.events ++ [⟨code, t.sec, .pending⟩] }
  else bump Ctr.proxyKeyListOverflows { s with keyList.overflow := true }

/-- The pending events of the list, in list order. -/
def FieldKeyList.pending (l : FieldKeyList) : List FieldKeyEvent := l.events.filter fun e => e.mark == .pending

/-- The age of an event in whole seconds, saturating at 255 (R70). -/
def FieldKeyEvent.age (e : FieldKeyEvent) (t : Instant) : Byte := byte (min 255 (elapsed e.stamp t.sec))

/-- Every pending event becomes in-flight in copy `n` (R70). -/
def FieldKeyList.copied (l : FieldKeyList) (n : Nat) : List FieldKeyEvent :=
  l.events.map fun e => if e.mark == .pending then { e with mark := .inFlight n } else e

/-- The descriptor of a key-list reply, and the list after the copy (R70). -/
def copyKeyList (topic tag : Byte) (t : Instant) (s : State) : Descriptor × State :=
  let l := s.keyList
  (⟨ownStation s, topic, tag, ⟨false, false, false, true⟩,
      .keyList l.nextCopy (l.pending.map fun e => (e.code, e.age t)) l.overflow⟩,
    { s with keyList := { l with events := l.copied l.nextCopy, overflow := false, nextCopy := l.nextCopy + 1 } })

/-- The events of a sent copy leave the list and are counted as delivered; a copy cut off at RUNNING has none on
the list (R71). -/
def keyListDelivered (copy : Nat) (events : List (Byte × Byte)) (s : State) : State :=
  bumpBy Ctr.proxyKeyEventsDelivered events.length
    { s with keyList.events := s.keyList.events.filter fun e => e.mark != .inFlight copy }

/-- The events of a refused or discarded copy return to pending and the overflow mark it carried is set again,
unless the copy was cut off at RUNNING (R72, R73). -/
def undoKeyList (copy : Nat) (overflow : Bool) (s : State) : State :=
  let l := s.keyList
  { s with keyList := { l with
      events := l.events.map fun e => if e.mark == .inFlight copy then { e with mark := .pending } else e
      overflow := l.overflow || (overflow && decide (l.cutBelow ≤ copy)) } }

/-- On entry to RUNNING every event leaves the list, the pending ones are counted, and every copy made so far is
cut off from it (R73). -/
def emptyKeyList (s : State) : State :=
  bumpBy Ctr.proxyKeyEventsDroppedAtRunning s.keyList.pending.length
    { s with keyList := { s.keyList with events := [], overflow := false, cutBelow := s.keyList.nextCopy } }

/-! ### Descriptors (R19, R20) -/

/-- What a descriptor holds is undone: its pin is released or its key-list copy returned (R63, R72). -/
def undoDescriptor (d : Descriptor) (s : State) : State :=
  match d.source with
  | .nothing => s
  | .half e h => unpinHalf e h s
  | .keyList copy _ overflow => undoKeyList copy overflow s

/-- A descriptor is offered to the Field Transmit Queue; a refused one is dropped, counted and undone (R19). -/
def offerReply (d : Descriptor) (s : State) : State :=
  if fieldQueueRoom s then enqueueReply d s
  else undoDescriptor d (bump Ctr.droppedComposedReplies s)

/-- A reply with no payload source, offered at once. -/
def offerBareReply (topic tag : Byte) (f : ReplyFlags) (s : State) : State :=
  offerReply ⟨ownStation s, topic, tag, f, .nothing⟩ s

/-- The bytes of the frame a descriptor is sent as (R20): class Reply, P set, the payload taken from its source. -/
def descriptorBytes (d : Descriptor) (s : State) : List Byte :=
  let control := 1 + 8 * bit d.flags.b + 16 * bit d.flags.e + 32 * bit d.flags.s + 64 * bit d.flags.h + 128
  let payload := match d.source with
    | .nothing => []
    | .half e h => (s.proxy[e].get h).payload
    | .keyList _ events overflow =>
      [byte events.length, byte (bit overflow)] ++ events.flatMap fun e => [e.1, e.2]
  frameBytes d.station control d.topic d.tag payload

/-! ### Proxy replies (R62, R58) -/

/-- Who asks for a composed reply. -/
inductive ReplyPurpose where
  | answer
  | expiry
  | exchangeFull
  deriving DecidableEq, Repr

/-- The half is stale at composition (R62). -/
def isStale (maxAge : Half) (stamp : Word) (t : Instant) : Bool :=
  maxAge != 0 && decide (maxAge.toNat < elapsed stamp t.sec)

/-- A proxy reply that references the active half, which takes a pin (R62). -/
def proxyReply (e : ProxyId) (topic tag : Byte) (h : Bool) (t : Instant) (s : State) : State :=
  let r := s.proxy[e]
  let stale := isStale s.tables.proxy.live[e].maxAge (r.get r.active).stamp t
  let d : Descriptor := ⟨ownStation s, topic, tag, ⟨false, false, stale, h⟩, .half e r.active⟩
  let s := bump Ctr.proxyProxyReplies (pinHalf e r.active s)
  offerReply d (if stale then bump Ctr.proxyStaleReplies s else s)

/-- The reply when no half can be read: busy for the exchange-full path (R58), otherwise empty (R62). -/
def noHalfReply (purpose : ReplyPurpose) (topic tag : Byte) (h : Bool) (s : State) : State :=
  match purpose with
  | .exchangeFull => offerBareReply topic tag ⟨true, false, false, h⟩ s
  | _ => offerBareReply topic tag ⟨false, true, false, h⟩ (bump Ctr.proxyEmptyReplies s)

/-- The reply composed for a topic from the Proxy Table and offered to the Field Transmit Queue (R62, R58). -/
def composeReply (purpose : ReplyPurpose) (topic tag : Byte) (h : Bool) (t : Instant) (s : State) : State :=
  match proxyFor topic s with
  | some e =>
    let half := s.proxy[e].get s.proxy[e].active
    if half.filled then
      if half.pins < 16 then proxyReply e topic tag h t s
      else offerBareReply topic tag ⟨true, false, false, h⟩ (bump Ctr.proxyPinLimitReplies s)
    else noHalfReply purpose topic tag h s
  | none => noHalfReply purpose topic tag h s

/-- A capture of a host Reply's payload (R64). -/
def capture (topic : Byte) (payload : List Byte) (t : Instant) (s : State) : State :=
  match proxyFor topic s with
  | none => bump Ctr.proxyCapturesWithoutEntry s
  | some e =>
    if inactivePinned e s then bump Ctr.proxyCapturesSkipped s
    else bump Ctr.proxyCaptures (fillInactive e payload t s)

/-- A half that a setup change empties: with pins it keeps its bytes, length and stamp (R67). -/
def ProxyHalf.emptied (x : ProxyHalf) : ProxyHalf :=
  if x.pins = 0 then {} else { x with filled := false }

/-- The runtime part after its setup went from `old` to `new` (R67). -/
def ProxyRuntime.afterSetup (r : ProxyRuntime) (old new : ProxySetup) : ProxyRuntime :=
  if old.valid = new.valid ∧ old.topic = new.topic then r
  else { r with half0 := r.half0.emptied, half1 := r.half1.emptied }

end Sys2Proof.Machine
end

