-- ==== Sys2Proof/Machine/Exchanges.lean ====
section
/-! DEFINITION. The Exchange Tracker (R50 to R60). -/

namespace Sys2Proof.Machine

def setExchange (i : ExchangeId) (x : Exchange) (s : State) : State :=
  { s with exchanges := s.exchanges.set i x }

/-- The tag of a Waiting or Late entry. -/
def Exchange.tag? : Exchange → Option Byte
  | .free => none
  | .waiting r => some r.tag
  | .late r _ => some r.tag

def Exchange.isWaiting : Exchange → Bool
  | .waiting _ => true
  | _ => false

def Exchange.isLate : Exchange → Bool
  | .late _ _ => true
  | _ => false

/-- The Waiting entry that holds a tag (R35). -/
def waitingWith (tag : Byte) (s : State) : Option ExchangeId :=
  (List.finRange 8).find? fun i => s.exchanges[i].isWaiting && s.exchanges[i].tag? == some tag

/-- The Late entry that holds a tag (R40). -/
def lateWith (tag : Byte) (s : State) : Option ExchangeId :=
  (List.finRange 8).find? fun i => s.exchanges[i].isLate && s.exchanges[i].tag? == some tag

/-- The Free entry with the lowest index (R51). -/
def freeExchange (s : State) : Option ExchangeId :=
  (List.finRange 8).find? fun i => s.exchanges[i] == .free

/-- The entry a Forward uses: the Late entry with the tag, else a Free one (R40). -/
def exchangeFor (tag : Byte) (s : State) : Option ExchangeId := lateWith tag s <|> freeExchange s

/-- An exchange is opened, or the Late entry reopened, for a request that arrived at `t` (R51). -/
def openExchange (i : ExchangeId) (tag topic : Byte) (t : Instant) (s : State) : State :=
  let reopened := s.exchanges[i].isLate
  let limit := (settings s).hostAnswerLimit.toNat
  let s := setExchange i (.waiting ⟨tag, topic, t.ms, t.ms + BitVec.ofNat 32 limit, 0⟩) s
  let s := bump Ctr.exchangesForwardedRequests s
  if reopened then bump Ctr.exchangesReopenedExchanges s else s

/-- A retry is absorbed into a Waiting entry (R52). -/
def absorbRetry (i : ExchangeId) (s : State) : State :=
  match s.exchanges[i] with
  | .waiting r =>
    let n : BitVec 8 := if r.retries = 255 then 255 else r.retries + 1
    bump Ctr.exchangesRetriesAbsorbed (setExchange i (.waiting { r with retries := n }) s)
  | _ => s

/-- A host Reply ended the exchange (R53). -/
def answerExchange (i : ExchangeId) (s : State) : State :=
  bump Ctr.exchangesAnsweredExchanges (setExchange i .free s)

/-- A Waiting entry expires: it becomes Late, lateHold starts, and one expiry reply is composed, with H as given
(R54, R57). -/
def expireExchange (i : ExchangeId) (h : Bool) (t : Instant) (s : State) : State :=
  match s.exchanges[i] with
  | .waiting r =>
    let s := setExchange i (.late r (startTimer t (settings s).lateHold.toNat)) s
    let s := composeReply .expiry r.topic r.tag h t s
    bumpBy Ctr.exchangesRetriesBeforeExpiry r.retries.toNat (bump Ctr.exchangesExpiries s)
  | _ => s

/-- The open time of a Waiting entry. -/
def Exchange.waitingSince : Exchange → Option Word
  | .waiting r => some r.openTime
  | _ => none

/-- An entry put after every entry that is at least as old (R57: oldest first, then by index). -/
def insertByAge (x : Nat × ExchangeId) : List (Nat × ExchangeId) → List (Nat × ExchangeId)
  | [] => [x]
  | y :: ys => if y.1 < x.1 then x :: y :: ys else y :: insertByAge x ys

/-- The Waiting entries in order of open time, oldest first, and among equal open times by index (R57); the age is
the time-base difference from the open time to now (R1, log 33). -/
def waitingByAge (t : Instant) (s : State) : List ExchangeId :=
  let aged := (List.finRange 8).filterMap fun i =>
    s.exchanges[i].waitingSince.map fun o => (elapsed o t.ms, i)
  (aged.foldl (fun acc x => insertByAge x acc) []).map Prod.snd

/-- Every entry Waiting as liveness leaves HostUp expires at once with H set (R57). -/
def expireOnLeavingHostUp (t : Instant) (s : State) : State :=
  let due := waitingByAge t s
  bumpBy Ctr.exchangesExpiriesOnLeavingHostUp due.length
    (due.foldl (fun s i => expireExchange i true t s) s)

/-- The deadline of a Waiting entry is reached (R54, log 2). -/
def deadlineReached (r : Request) (now : Word) : Bool :=
  elapsed r.openTime r.deadline ≤ elapsed r.openTime now

/-- EXCHANGE_DEADLINE_EXPIRY (R54): H is set if liveness is not HostUp. -/
def execExchangeDeadlineExpiry (i : ExchangeId) (s : State) : Host.Outcome State Fault Refusal :=
  match s.exchanges[i] with
  | .waiting r =>
    if deadlineReached r s.clock.ms then .next (expireExchange i (!hostUp s) s.clock s) else .next s
  | _ => .next s

/-- LATE_HOLD_EXPIRY (R56): a Late entry whose lateHold has run becomes Free. -/
def execLateHoldExpiry (i : ExchangeId) (s : State) : Host.Outcome State Fault Refusal :=
  match s.exchanges[i] with
  | .late _ hold => if hold.due s.clock.ms then .next (setExchange i .free s) else .next s
  | _ => .next s

end Sys2Proof.Machine
end

