-- ==== Sys2Proof/Machine/Supply.lean ====
section
/-! DEFINITION. The supply allowance and the Blocked marks of the heater channels (R123, R124): used where host power
changes, where settings change and by the heat period. -/

namespace Sys2Proof.Machine

/-- The two heater channels. -/
inductive Heater where
  | board
  | glass
  deriving DecidableEq, Repr

def HeatDrive.channel (h : HeatDrive) : Heater → HeaterChannel
  | .board => h.board
  | .glass => h.glass

def HeatDrive.setChannel (h : HeatDrive) (c : Heater) (x : HeaterChannel) : HeatDrive :=
  match c with
  | .board => { h with board := x }
  | .glass => { h with glass := x }

/-- On-steps of a channel set to 0. -/
def Allocation.clear (a : Allocation) : Heater → Allocation
  | .board => { a with onB := 0 }
  | .glass => { a with onG := 0 }

/-- A heater's own load (R123). -/
def heaterLoad (t : SettingsTable) : Heater → Int
  | .board => t.boardLoad
  | .glass => t.glassLoad

/-- A channel is allowed when the host is unpowered, or when hostLoad plus its load is at most supplyCap (R123). -/
def heaterAllowed (s : State) (c : Heater) : Bool :=
  !hostPowerEnable s || decide ((settings s).hostLoad + heaterLoad (settings s) c ≤ (settings s).supplyCap)

def blockCounter : Heater → CounterId
  | .board => Ctr.thermalBoardBlocks
  | .glass => Ctr.thermalGlassBlocks

/-- The Blocked mark is set: the output goes off, the current on-steps become 0, the block is counted (R124). -/
def setBlocked (c : Heater) (s : State) : State :=
  bump (blockCounter c)
    { s with heat := { s.heat.setChannel c { s.heat.channel c with blocked := true, output := false } with
        current := s.heat.current.clear c } }

/-- A channel that is not allowed is blocked at once; one already blocked is not blocked again (R124). -/
def blockIfNotAllowed (c : Heater) (s : State) : State :=
  if heaterAllowed s c || (s.heat.channel c).blocked then s else setBlocked c s

/-- Both channels are judged when host power comes on or the supply settings change (R124). -/
def blockNotAllowed (s : State) : State := blockIfNotAllowed .glass (blockIfNotAllowed .board s)

end Sys2Proof.Machine
end

