-- ==== Sys2Proof/Machine/Liveness.lean ====
section
/-! DEFINITION. The Liveness Controller: state changes, heartbeats, restarts, the Restart Log, and the expiries of
its timers (R75 to R96). -/

namespace Sys2Proof.Machine

/-! ### The Restart Log (R94) -/

/-- The fault marker of reported temperatures (R102). -/
def faultMarker : Int := -32768

/-- The board temperature of a record: the filtered value, or the fault marker if the Board channel is Faulted or
has no value (R94). -/
def loggedBoardTemp (s : State) : Int := s.temp.board.usable.getD faultMarker

/-- Whole seconds since liveness last entered BOOTING, saturating at 16777215; 0 if it has not since host power
came on (R94). -/
def uptimeAt (live : LivenessController) (t : Instant) : Nat :=
  match live.bootTime with
  | some b => min 16777215 (elapsed b.sec t.sec - bit (decide (t.sub < b.sub)))
  | none => 0

/-- A record joins the ring of 16; when it is full the oldest is replaced (R94). -/
def RestartLog.append (l : RestartLog) (r : LogRecord) : RestartLog :=
  ⟨(if l.records.length < 16 then l.records else l.records.drop 1) ++ [r], l.nextSeq + 1⟩

/-- A Restart Log record is written (R94). -/
def writeLog (cause : RestartCause) (action : RestartAction) (counted : Bool) (t : Instant) (s : State) : State :=
  let r : LogRecord :=
    ⟨s.log.nextSeq, cause, action, t.sec, uptimeAt s.live t, loggedBoardTemp s, s.live.lateReplies, counted⟩
  { s with log := s.log.append r }

/-! ### State changes (R75, R76, R96) -/

/-- The Key Event Queue is emptied, its records counted and the pending-loss mark cleared (R168). -/
def flushKeyQueue (s : State) : State :=
  bumpBy Ctr.keysEventsFlushed s.keyUnit.queue.length
    { s with keyUnit.queue := [], keyUnit.lossPending := false }

/-- What leaving HostUp does in other blocks (R96, R57, R168). -/
def leaveHostUp (t : Instant) (s : State) : State := flushKeyQueue (expireOnLeavingHostUp t s)

/-- Host power comes on: the boot time is forgotten (R94) and channels not allowed are blocked (R124). -/
def hostPowerOn (s : State) : State := blockNotAllowed { s with live.bootTime := none }

/-- Liveness moves to `st` at `t` with its timer, with the effects on host power (R76) and on leaving HostUp (R96),
which are dated by the clock (log 33). -/
def enterState (st : Liveness) (timer : Option Timer) (t : Instant) (s : State) : State :=
  let old := s.live.state
  let s := { s with live := { s.live with state := st, enteredAt := t.sec, timer := timer } }
  let s := if st.isPowered && !old.isPowered then hostPowerOn s else s
  if old.isHostUp && !st.isHostUp then leaveHostUp s.clock s else s

/-- POWERING (R80). -/
def enterPowering (t : Instant) (s : State) : State :=
  enterState .powering (some (startTimer t (settings s).powerSettle.toNat)) t s

/-- COLD HOLD is left for POWERING when readiness is Ready and Hot is not raised (R79). -/
def leaveColdHold (t : Instant) (s : State) : State :=
  if s.live.state == .coldHold && s.temp.readiness == .ready && !s.temp.hot then enterPowering t s else s

/-- The Temperature Monitor takes the moment as the fallback start; in cold fallback readiness becomes
NotReady (R108). -/
def startFallback (t : Instant) (s : State) : State :=
  { s with temp := { s.temp with
      fallbackStart := some t.ms
      readiness := if coldFallback s then .notReady else s.temp.readiness
      dwell := if coldFallback s then none else s.temp.dwell } }

/-- COLD HOLD is entered (R79). -/
def enterColdHold (t : Instant) (s : State) : State :=
  leaveColdHold t (startFallback t (enterState .coldHold none t s))

/-- BOOTING (R81). -/
def enterBooting (t : Instant) (s : State) : State :=
  let s := enterState .booting (some (startTimer t ((settings s).bootGrace.toNat * 1000))) t s
  { s with live.bootTime := some t }

/-- The windowMax timer starts and the moment becomes the time of the last accepted heartbeat (R82). -/
def restartWindow (t : Instant) (s : State) : State :=
  { s with live := { s.live with
      timer := some (startTimer t (settings s).windowMax.toNat), lastHeartbeat := t.ms, earlyStreak := 0 } }

/-- RUNNING (R82); from BOOTING the Field Key List is emptied (R73, R96). -/
def enterRunning (t : Instant) (s : State) : State :=
  let fromBooting := s.live.state == .booting
  let s := restartWindow t (enterState .running none t s)
  let s := { s with live := { s.live with failedRestarts := 0, lateReplies := 0 } }
  if fromBooting then emptyKeyList s else s

/-- WARNED with its STATE notice: state code 5, reason 1, the warnGrace just started (R83). -/
def enterWarned (t : Instant) (s : State) : State :=
  let grace := (settings s).warnGrace.toNat
  let s := enterState .warned (some (startTimer t grace)) t s
  bump Ctr.livenessWarnings
    (composeNotice topicState ([byte Liveness.warned.code, 1] ++ be16 (min 65535 grace)) s)

/-- RESETTING (R88). -/
def enterResetting (t : Instant) (s : State) : State :=
  enterState .resetting (some (startTimer t (settings s).resetPulse.toNat)) t s

/-- CYCLING (R89). -/
def enterCycling (t : Instant) (s : State) : State :=
  enterState .cycling (some (startTimer t ((settings s).cycleOff.toNat * 1000))) t s

/-! ### Heartbeats (R82 to R85) -/

/-- An accepted heartbeat: BOOTING and WARNED move to RUNNING, and in RUNNING the window restarts (R82, R84). -/
def acceptHeartbeat (t : Instant) (s : State) : State :=
  match s.live.state with
  | .running => restartWindow t s
  | _ => enterRunning t s

/-- The states in which a heartbeat is heard (R84, R85). -/
def Liveness.hears : Liveness → Bool
  | .booting | .running | .warned => true
  | _ => false

/-- A traffic heartbeat: accepted if trafficFeed is yes in BOOTING, RUNNING or WARNED, otherwise disregarded (R85). -/
def trafficHeartbeat (t : Instant) (s : State) : State :=
  if (settings s).trafficFeed != 0 && s.live.state.hears then
    bump Ctr.livenessTrafficHeartbeats (acceptHeartbeat t s)
  else s

/-! ### Restarts (R86 to R92) -/

/-- The budget entries that exceed budgetWindow leave the head of the list and are counted (R86). -/
def ageBudget (t : Instant) (s : State) : State :=
  let window := (settings s).budgetWindow.toNat
  let kept := s.live.budget.dropWhile fun e => window < elapsed e t.sec
  bumpBy Ctr.livenessBudgetEntriesExpired (s.live.budget.length - kept.length)
    { s with live.budget := kept }

/-- LATCHED: the budget is spent (R86, R87). -/
def latch (cause : RestartCause) (t : Instant) (s : State) : State :=
  bump Ctr.livenessLatches (enterState .latched none t (writeLog cause .powerOff true t s))

/-- A counted restart with budget left: a reset pulse, or a power cycle from resetEscalation failed restarts on (R86). -/
def makeRestart (cause : RestartCause) (t : Instant) (s : State) : State :=
  let s := { s with live := { s.live with
      budget := s.live.budget ++ [t.sec], failedRestarts := satAdd s.live.failedRestarts 1 } }
  let s := bump Ctr.livenessCountedRestarts s
  if (settings s).resetEscalation.toNat ≤ s.live.failedRestarts.toNat then
    enterCycling t (writeLog cause .powerCycle true t s)
  else enterResetting t (writeLog cause .resetPulse true t s)

/-- A counted restart (R86). -/
def countedRestart (cause : RestartCause) (t : Instant) (s : State) : State :=
  let s := ageBudget t s
  if (settings s).maxRestarts.toNat ≤ s.live.budget.length then latch cause t s else makeRestart cause t s

/-- An uncounted restart of a powered host: a power cycle or a reset pulse (R90). -/
def uncountedRestart (cause : RestartCause) (cycle : Bool) (t : Instant) (s : State) : State :=
  let s := bump Ctr.livenessUncountedRestarts s
  if cycle then enterCycling t (writeLog cause .powerCycle false t s)
  else enterResetting t (writeLog cause .resetPulse false t s)

/-- Release from OFF or LATCHED into COLD HOLD; from LATCHED the budget and the failed-restart count are
cleared (R78). -/
def releaseHost (t : Instant) (s : State) : State :=
  match s.live.state with
  | .off => enterColdHold t s
  | .latched => enterColdHold t { s with live := { s.live with budget := [], failedRestarts := 0 } }
  | _ => s

/-- The states a release acts in (R78). -/
def Liveness.isReleasable : Liveness → Bool
  | .off | .latched => true
  | _ => false

/-- The end of STOPPING: host power off with a HostShutdown record (R91). -/
def finishStop (t : Instant) (s : State) : State :=
  enterState .off none t (writeLog .hostShutdown .powerOff false t s)

/-- STOPPING for a delay in seconds; in STOPPING only the timer starts again; a delay of 0 expires at once (R91). -/
def startStop (delay : Nat) (t : Instant) (s : State) : State :=
  let timer := some (startTimer t (delay * 1000))
  let s := if s.live.state == .stopping then { s with live.timer := timer } else enterState .stopping timer t s
  if delay = 0 then finishStop t s else s

/-- Hot was raised: a powered host goes to HOT HOLD with an OverTemperature record (R92). -/
def hotRaised (t : Instant) (s : State) : State :=
  if hostPowerEnable s then
    bump Ctr.livenessOverTemperaturePowerOffs
      (enterState .hotHold none t (writeLog .overTemperature .powerOff false t s))
  else s

/-- Hot was cleared: HOT HOLD goes to COLD HOLD, and COLD HOLD may be left (R92, R79). -/
def hotCleared (t : Instant) (s : State) : State :=
  if s.live.state == .hotHold then enterColdHold t s else leaveColdHold t s

/-- The oldest budget entries leave until maxRestarts remain (R93). -/
def trimBudget (s : State) : State :=
  let excess := s.live.budget.length - (settings s).maxRestarts.toNat
  bumpBy Ctr.livenessBudgetEntriesExpired excess { s with live.budget := s.live.budget.drop excess }

/-! ### Timer expiries (R75: taken only in the state that started the timer; log 2) -/

/-- The timer of the state `st` has run out. -/
def livenessTimerDue (st : Liveness) (s : State) : Bool :=
  s.live.state == st && timerDue s.live.timer s.clock.ms

/-- POWER_SETTLE_EXPIRY (R80). -/
def execPowerSettleExpiry (s : State) : Host.Outcome State Fault Refusal :=
  .next (if livenessTimerDue .powering s then enterBooting s.clock s else s)

/-- BOOT_GRACE_EXPIRY (R81). -/
def execBootGraceExpiry (s : State) : Host.Outcome State Fault Refusal :=
  .next (if livenessTimerDue .booting s then countedRestart .bootTimeout s.clock s else s)

/-- WINDOW_MAX_EXPIRY (R82). -/
def execWindowMaxExpiry (s : State) : Host.Outcome State Fault Refusal :=
  .next (if livenessTimerDue .running s then enterWarned s.clock s else s)

/-- WARN_GRACE_EXPIRY (R83). -/
def execWarnGraceExpiry (s : State) : Host.Outcome State Fault Refusal :=
  .next (if livenessTimerDue .warned s then countedRestart .watchdogExpiry s.clock s else s)

/-- RESET_PULSE_EXPIRY (R88). -/
def execResetPulseExpiry (s : State) : Host.Outcome State Fault Refusal :=
  .next (if livenessTimerDue .resetting s then enterBooting s.clock s else s)

/-- CYCLE_OFF_EXPIRY (R89). -/
def execCycleOffExpiry (s : State) : Host.Outcome State Fault Refusal :=
  .next (if livenessTimerDue .cycling s then
    if s.temp.readiness == .ready && !s.temp.hot then enterPowering s.clock s else enterColdHold s.clock s
  else s)

/-- STOP_DELAY_EXPIRY (R91). -/
def execStopDelayExpiry (s : State) : Host.Outcome State Fault Refusal :=
  .next (if livenessTimerDue .stopping s then finishStop s.clock s else s)

end Sys2Proof.Machine
end

