-- ==== Sys2Proof/Machine/Temperature.lean ====
section
/-! DEFINITION. The Temperature Monitor: sampling, conversion, filtering, readiness and Hot (R101 to R115). -/

namespace Sys2Proof.Machine

/-! ### Conversion and filter (R101, R105, R106) -/

/-- Point T[k] of a curve (R104). -/
def CurveTable.point (c : CurveTable) (k : Nat) : Int := c.toList.getD k 0

/-- A code's temperature on a curve: segment, remainder, product, rounded step, clamped result (R105). -/
def convert (c : CurveTable) (code : Nat) : Int :=
  let k := code / 256
  let p := (c.point (k + 1) - c.point k) * ((code - 256 * k : Nat) : Int)
  clampInt (-500) 1500 (c.point k + (p + 128) / 256)

/-- A code from 16 to 4079 is valid; any other is a fault code (R101). -/
def codeValid (code : Nat) : Bool := 16 ≤ code && code ≤ 4079

/-- The new filtered value: a quarter of the difference, the fraction discarded toward zero (R106). -/
def filterStep (f t : Int) : Int := f + (t - f).tdiv 4

/-- The filtered or held value of a channel (R102). -/
def Channel.value : Channel → Option Int
  | .unseeded => none
  | .valid f => some f
  | .faulted held => held

/-- A reported temperature: the channel's value, or the fault marker if it has none (R102). -/
def Channel.reported (c : Channel) : Int := c.value.getD faultMarker

/-- A channel after a sampling event with this code (R102, R106). -/
def Channel.sampled (c : Channel) (curve : CurveTable) (code : Nat) : Channel :=
  if codeValid code then
    match c with
    | .valid f => .valid (filterStep f (convert curve code))
    | _ => .valid (convert curve code)
  else
    match c with
    | .unseeded => .faulted none
    | .valid f => .faulted (some f)
    | .faulted held => .faulted held

/-! ### The three sensors -/

inductive Sensor where
  | board
  | glass
  | air
  deriving DecidableEq, Repr

def Sensor.code : Sensor → Nat
  | .board => 0
  | .glass => 1
  | .air => 2

def TemperatureMonitor.channel (m : TemperatureMonitor) : Sensor → Channel
  | .board => m.board
  | .glass => m.glass
  | .air => m.air

def TemperatureMonitor.setChannel (m : TemperatureMonitor) (x : Sensor) (c : Channel) : TemperatureMonitor :=
  match x with
  | .board => { m with board := c }
  | .glass => { m with glass := c }
  | .air => { m with air := c }

/-- The curve a sensor uses (R104). -/
def sensorCurve (s : State) (x : Sensor) : CurveTable :=
  let choice := match x with
    | .board => (settings s).boardCurve
    | .glass => (settings s).glassCurve
    | .air => (settings s).airCurve
  if choice = 0 then s.tables.curveA.live else s.tables.curveB.live

def faultCounter : Sensor → CounterId
  | .board => Ctr.thermalBoardFaults
  | .glass => Ctr.thermalGlassFaults
  | .air => Ctr.thermalAirFaults

def recoveryCounter : Sensor → CounterId
  | .board => Ctr.thermalBoardRecoveries
  | .glass => Ctr.thermalGlassRecoveries
  | .air => Ctr.thermalAirRecoveries

def Channel.isValid : Channel → Bool
  | .valid _ => true
  | _ => false

def Channel.isFaulted : Channel → Bool
  | .faulted _ => true
  | _ => false

/-- A THERMAL notice: sensor, event, filtered or held value (section 1.10, R103). -/
def thermalNotice (x : Sensor) (event : Nat) (s : State) : State :=
  composeNotice topicThermal ([byte x.code, byte event] ++ beInt16 (s.temp.channel x).reported) s

/-- A channel is updated, and a change into or out of Faulted is counted and reported (R102, R103). -/
def sampleChannel (x : Sensor) (code : SensorCode) (s : State) : State :=
  let old := s.temp.channel x
  let new := old.sampled (sensorCurve s x) code.toNat
  let s := { s with temp := s.temp.setChannel x new }
  if new.isFaulted && !old.isFaulted then thermalNotice x 1 (bump (faultCounter x) s)
  else if old.isFaulted && !new.isFaulted then thermalNotice x 2 (bump (recoveryCounter x) s)
  else s

/-- A running airflow learn is abandoned (R138). -/
def abandonLearn (s : State) : State :=
  match s.fan.learn with
  | .learning _ => bump Ctr.thermalLearnsAbandoned { s with fan.learn := .abandoned }
  | _ => s

/-- The learn is abandoned when the Board or Air channel leaves Valid (R138). -/
def abandonLearnOnLoss (before s : State) : State :=
  if (before.temp.board.isValid && !s.temp.board.isValid) || (before.temp.air.isValid && !s.temp.air.isValid) then
    abandonLearn s
  else s

/-- A working value is taken from Air (R107). -/
def standInTaken (s : State) : Bool :=
  s.temp.air.isValid && (!s.temp.board.isValid || !s.temp.glass.isValid)

/-! ### Readiness (R108 to R111) -/

/-- Both working values meet their minimums less a margin (R109, R111). -/
def warmEnough (s : State) (margin : Int) : Bool :=
  match workingBoard s, workingGlass s with
  | some b, some g =>
    decide ((settings s).bootMinTemp - margin ≤ b) && decide ((settings s).glassMinTemp - margin ≤ g)
  | _, _ => false

def setReadiness (r : Readiness) (dwell : Option Timer) (s : State) : State :=
  { s with temp := { s.temp with readiness := r, dwell := dwell } }

/-- At least coldFallback has passed since the fallback start (R108). -/
def fallbackElapsed (t : Instant) (s : State) : Bool :=
  match s.temp.fallbackStart with
  | some f => (settings s).coldFallback.toNat * 60000 ≤ elapsed f t.ms
  | none => false

/-- Readiness in cold fallback, decided from the fallback start alone (R108). A Dwelling that ends so is not counted as a
dwell abandoned: R116 names a return from Dwelling to NotReady beside R110, and R108 names no count; this is the
model's choice (log 39). -/
def fallbackReadiness (t : Instant) (s : State) : State :=
  if fallbackElapsed t s then
    let s' := setReadiness .ready none s
    if s.temp.readiness == .ready then s' else bump Ctr.thermalFallbackGrants s'
  else setReadiness .notReady none s

/-- NotReady moves to Dwelling when the tests pass; with readyDwell 0 it goes on to Ready (R109). -/
def startDwell (t : Instant) (s : State) : State :=
  let length := (settings s).readyDwell.toNat * 1000
  if length = 0 then setReadiness .ready none s
  else setReadiness .dwelling (some (startTimer t length)) s

/-- Readiness outside cold fallback (R109 to R111). -/
def measuredReadiness (t : Instant) (s : State) : State :=
  match s.temp.readiness with
  | .notReady => if warmEnough s 0 then startDwell t s else s
  | .dwelling =>
    if warmEnough s 0 then s else bump Ctr.thermalDwellsAbandoned (setReadiness .notReady none s)
  | .ready =>
    if warmEnough s (settings s).readyHyst then s
    else bump Ctr.thermalReadinessLosses (setReadiness .notReady none s)

/-- Readiness at a sampling event (R108 to R111). -/
def evaluateReadiness (t : Instant) (s : State) : State :=
  if coldFallback s then fallbackReadiness t s else measuredReadiness t s

/-! ### Hot (R113, R114) -/

/-- Hot at a sampling event (R113, R114). -/
def evaluateHot (s : State) : State :=
  match workingBoard s with
  | none =>
    if s.temp.hot then bump Ctr.thermalHotClearedWithoutValue { s with temp.hot := false } else s
  | some b =>
    if s.temp.hot then
      if b < (settings s).resumeTemp then { s with temp.hot := false } else s
    else if (settings s).shutdownTemp ≤ b then bump Ctr.thermalHotRaised { s with temp.hot := true }
    else s

/-- The Liveness Controller takes the change of Hot and the move to Ready, both values standing (R112, R113). -/
def handOverThermal (before : State) (t : Instant) (s : State) : State :=
  let s := if s.temp.hot && !before.temp.hot then hotRaised t s
    else if before.temp.hot && !s.temp.hot then hotCleared t s else s
  if s.temp.readiness == .ready && before.temp.readiness != .ready then leaveColdHold t s else s

/-- The channels at a sampling event, in the order Board, Glass, Air, and what their change ends or counts
(R101 to R108, R138). -/
def sampleChannels (board glass air : SensorCode) (s : State) : State :=
  let before := s
  let s := sampleChannel .air air (sampleChannel .glass glass (sampleChannel .board board s))
  let s := abandonLearnOnLoss before s
  let s := if standInTaken s then bump Ctr.thermalStandInSamples s else s
  if coldFallback s && !coldFallback before then bump Ctr.thermalFallbackEntries s else s

/-- The sampling event is due (R101, log 22). -/
def sampleDue (s : State) : Bool := 100 ≤ elapsed s.temp.lastSample s.clock.ms

/-- TEMPERATURE_SAMPLE (R101). -/
def execTemperatureSample (board glass air : SensorCode) (s : State) : Host.Outcome State Fault Refusal :=
  .next (if sampleDue s then
    let before := s
    let s := { s with temp.lastSample := s.temp.lastSample + 100 }
    let s := sampleChannels board glass air s
    handOverThermal before s.clock (evaluateHot (evaluateReadiness s.clock s))
  else s)

/-- DWELL_EXPIRY (R110): taken only in Dwelling; the Liveness Controller takes the move to Ready (R112). -/
def execDwellExpiry (s : State) : Host.Outcome State Fault Refusal :=
  .next (if s.temp.readiness == .dwelling && timerDue s.temp.dwell s.clock.ms then
    leaveColdHold s.clock (setReadiness .ready none s)
  else s)

end Sys2Proof.Machine
end

