-- ==== Sys2Proof/Machine/Heat.lean ====
section
/-! DEFINITION. The heaters of the Heat Drive: demand, allocation, placement, cutoff (R119 to R129). -/

namespace Sys2Proof.Machine

/-! ### Demand (R120 to R122) -/

def heaterSetpoint (t : SettingsTable) : Heater → Int
  | .board => t.boardSetpoint
  | .glass => t.glassSetpoint

def heaterKp (t : SettingsTable) : Heater → Int
  | .board => t.boardKp
  | .glass => t.glassKp

def heaterKi (t : SettingsTable) : Heater → Int
  | .board => t.boardKi
  | .glass => t.glassKi

/-- The working value a heater follows (06 section 6.2). -/
def heaterValue (s : State) : Heater → Option Int
  | .board => workingBoard s
  | .glass => workingGlass s

/-- The error, clamped into −1000 to +1000 (R120). -/
def demandError (setpoint value : Int) : Int := clampInt (-1000) 1000 (setpoint - value)

/-- The demand from the raw demand: divided by 64 toward zero, clamped into 0 to 100 (R120). -/
def demandOf (raw : Int) : Nat := (clampInt 0 100 (raw.tdiv 64)).toNat

/-- The integrator after the demand: held in the four cases of R121, else moved by Ki × e and clamped (R121). -/
def integratorAfter (held : Bool) (ki raw e i : Int) : Int :=
  if held || (6400 ≤ raw && 0 < e) || (raw ≤ 0 && e < 0) then i else clampInt 0 6400 (i + ki * e)

/-- A channel's demand and its integrator afterwards; an absent working value demands 100 (R120 to R122). -/
def heaterDemand (s : State) (c : Heater) : Nat × Int :=
  let i := (s.heat.channel c).integrator
  match heaterValue s c with
  | none => (100, i)
  | some f =>
    let e := demandError (heaterSetpoint (settings s) c) f
    let raw := heaterKp (settings s) c * e + i
    (demandOf raw,
      integratorAfter ((s.heat.channel c).blocked || s.heat.cutoffMarks) (heaterKi (settings s) c) raw e i)

/-! ### Allocation and placement (R125, R126) -/

/-- The on-steps of the next period from the allowed demands; `boardFirst` is heatPriority Board (R125). -/
def allocate (dB dG g : Nat) (boardFirst : Bool) : Allocation :=
  if dG = 0 then ⟨min dB (100 - g), 0, g⟩
  else if dB = 0 then ⟨0, min dG (100 - g), g⟩
  else
    let avail := 100 - 2 * g
    if dB + dG ≤ avail then ⟨dB, dG, g⟩
    else if boardFirst then
      let other := dG * avail / (dB + dG)
      ⟨avail - other, other, g⟩
    else
      let other := dB * avail / (dB + dG)
      ⟨other, avail - other, g⟩

/-- The board heater is on during steps 0 to onB − 1 (R126). -/
def boardOnAt (a : Allocation) (step : Nat) : Bool := step < a.onB

/-- The glass heater is on during steps 100 − g − onG to 99 − g (R126). -/
def glassOnAt (a : Allocation) (step : Nat) : Bool := 100 ≤ step + a.g + a.onG && step + a.g < 100

/-- Both outputs are set for a step of the current allocation (R126). -/
def placeOutputs (step : Nat) (h : HeatDrive) : HeatDrive :=
  { h with
    board := { h.board with output := boardOnAt h.current step }
    glass := { h.glass with output := glassOnAt h.current step } }

/-- The step of the heat period that runs, from the time since the boundary (R119, log 23). -/
def heatStepNow (s : State) : Nat := elapsed s.heat.periodStart s.clock.ms / 10

/-! ### The heat period (R119) -/

/-- The demand event is due: step 90 has begun and this period's event was not taken (R119, log 22). -/
def demandDue (s : State) : Bool := 900 ≤ elapsed s.heat.periodStart s.clock.ms && !s.heat.demandTaken

/-- The demand event's work: both demands, both integrators and the pending allocation, in which a channel not
allowed counts as 0 (R120 to R125). -/
def takeDemand (s : State) : State :=
  let b := heaterDemand s .board
  let g := heaterDemand s .glass
  let dB := if heaterAllowed s .board then b.1 else 0
  let dG := if heaterAllowed s .glass then g.1 else 0
  { s with heat := { s.heat with
      board := { s.heat.board with integrator := b.2 }
      glass := { s.heat.glass with integrator := g.2 }
      pending := allocate dB dG (settings s).heatGap.toNat ((settings s).heatPriority == 0)
      demandTaken := true } }

/-- DEMAND_EVENT (R120). -/
def execDemandEvent (s : State) : Host.Outcome State Fault Refusal :=
  .next (if demandDue s then takeDemand s else s)

/-- A Blocked mark is cleared only at a boundary at which the channel is allowed (R124). -/
def unblock (c : Heater) (s : State) : State :=
  if heaterAllowed s c then
    { s with heat := s.heat.setChannel c { s.heat.channel c with blocked := false } }
  else s

/-- What the boundary installs: the pending allocation, with 0 for a Blocked channel and for both under the CutOff
marks (R127, R128). -/
def installed (h : HeatDrive) : Allocation :=
  { h.pending with
    onB := if h.board.blocked || h.cutoffMarks then 0 else h.pending.onB
    onG := if h.glass.blocked || h.cutoffMarks then 0 else h.pending.onG }

/-- The heaters' part of the boundary: marks cleared where they may be, the pending allocation installed, step 0
begun (R119, R124, R127, R129). -/
def heaterBoundary (s : State) : State :=
  let s := unblock .glass (unblock .board s)
  let h := { s.heat with
    cutoffMarks := s.heat.cutoffMarks && s.heat.cutoffLine
    periodStart := s.heat.periodStart + 1000
    demandTaken := false }
  { s with heat := placeOutputs 0 { h with current := installed h } }

/-- HEAT_STEP (R126): the outputs for the step that runs; after step 99 only the boundary begins a step (log 23). -/
def execHeatStep (s : State) : Host.Outcome State Fault Refusal :=
  .next (if heatStepNow s < 100 then { s with heat := placeOutputs (heatStepNow s) s.heat } else s)

/-! ### The cutoff line (R128, R129) -/

/-- Both outputs go off, both current on-steps become 0, the marks are set and the activation counted (R128). -/
def activateCutoff (s : State) : State :=
  bump Ctr.thermalCutoffActivations
    { s with heat := { s.heat with
        board := { s.heat.board with output := false }
        glass := { s.heat.glass with output := false }
        current := { s.heat.current with onB := 0, onG := 0 }
        cutoffLine := true
        cutoffMarks := true } }

/-- CUTOFF_ACTIVE (R128); a line already active does not become active (log 17). -/
def execCutoffActive (s : State) : Host.Outcome State Fault Refusal :=
  .next (if s.heat.cutoffLine then s else activateCutoff s)

/-- CUTOFF_RELEASE (R129): the marks stay set until the next boundary. -/
def execCutoffRelease (s : State) : Host.Outcome State Fault Refusal :=
  .next { s with heat.cutoffLine := false }

end Sys2Proof.Machine
end

