-- ==== Sys2Proof/Machine/Fan.lean ====
section
/-! DEFINITION. The fan of the Heat Drive: duty, stall handling, clog index, airflow learn, and the boundary event
(R119, R130 to R138). -/

namespace Sys2Proof.Machine

/-! ### Duty (R130, R131) -/

/-- The curve duty and the running mark after it, from the working Board value (R130). -/
def curveDuty (t : SettingsTable) (value : Option Int) (mark : Bool) : Nat × Bool :=
  match value with
  | none => (100, true)
  | some x =>
    if t.fanFull ≤ x then (100, true)
    else if t.fanStart ≤ x then
      ((t.fanMin + (100 - t.fanMin) * (x - t.fanStart) / (t.fanFull - t.fanStart)).toNat, true)
    else if t.fanStart - 20 ≤ x && mark then (t.fanMin.toNat, true)
    else (0, false)

def LearnState.isLearning : LearnState → Bool
  | .learning _ => true
  | _ => false

/-- The working Board value is present and at least fanStart (R131). -/
def boardAtFanStart (s : State) : Bool :=
  match workingBoard s with
  | some x => decide ((settings s).fanStart ≤ x)
  | none => false

/-- The commanded duty and the running mark at a boundary (R131). -/
def commandedDuty (s : State) : Nat × Bool :=
  let curve := curveDuty (settings s) (workingBoard s) s.fan.runningMark
  if s.fan.learn.isLearning then (100, curve.2)
  else if s.live.state == .coldHold then
    let duty := if boardAtFanStart s then curve.1 else 0
    (duty, curve.2 && duty != 0)
  else curve

/-- The duty the fan output runs at: 100 in a kick phase and in Failed, else the commanded duty (R131). -/
def fanOutput (f : FanDrive) : Nat :=
  match f.state with
  | .kicking (.kick _) => 100
  | .failed => 100
  | _ => f.commanded

/-- The fan moves between Off and Running with its commanded duty (R133). -/
def FanDrive.followDuty (f : FanDrive) : FanDrive :=
  match f.state with
  | .off => if 0 < f.commanded then { f with state := .running, stallRun := 0 } else f
  | .failed => f
  | _ => if f.commanded = 0 then { f with state := .off, stallRun := 0, goodRun := 0, kicks := 0 } else f

/-- The fan state codes of section 1.10. -/
def FanState.code : FanState → Nat
  | .off => 0
  | .running => 1
  | .kicking _ => 2
  | .failed => 3

/-- The clog index as reported: −32768 until its first refresh (R136). -/
def FanDrive.reportedClog (f : FanDrive) : Int := f.clogIndex.getD (-32768)

/-- A FAN notice: event, fan state code, speed, clog index (section 1.10). -/
def fanNotice (event : Nat) (s : State) : State :=
  composeNotice topicFan
    ([byte event, byte s.fan.state.code] ++ be16 s.fan.speed ++ beInt16 s.fan.reportedClog) s

/-! ### Judging the speed (R133 to R135) -/

/-- A kick phase starts: two boundaries at full duty, the stall run at 0, the kick counted (R134). -/
def startKick (kicks : Nat) (s : State) : State :=
  bump Ctr.thermalFanKicks
    { s with fan := { s.fan with state := .kicking (.kick 2), stallRun := 0, kicks := kicks } }

/-- Failed with its notice; a running learn is abandoned (R135, R138). -/
def failFan (s : State) : State :=
  let s := bump Ctr.thermalFanFailures { s with fan.state := .failed }
  fanNotice 1 (abandonLearn s)

/-- Recovery from Kicking or Failed: Running with the three counts 0, and on to Off if nothing is commanded
(R134, R135, R133). -/
def recoverFan (s : State) : State :=
  { s with fan := ({ s.fan with state := .running, stallRun := 0, goodRun := 0, kicks := 0 }).followDuty }

/-- The stall and good runs after a judgement in Kicking or Failed (R134, R135). -/
def FanDrive.judged (f : FanDrive) (good : Bool) : FanDrive :=
  if good then { f with goodRun := f.goodRun + 1, stallRun := 0 }
  else { f with stallRun := f.stallRun + 1, goodRun := 0 }

/-- The phase after a boundary: a kick phase ends at the second boundary after its start (R134). -/
def KickPhase.next : KickPhase → KickPhase
  | .kick n => if n ≤ 1 then .watch else .kick (n - 1)
  | .watch => .watch

/-- A boundary's judgement in Running (R133). -/
def judgeRunning (good : Bool) (s : State) : State :=
  if good then { s with fan.stallRun := 0 }
  else if s.fan.commanded = 0 then s
  else
    let s := { s with fan.stallRun := s.fan.stallRun + 1 }
    if 5 ≤ s.fan.stallRun then startKick 1 (abandonLearn s) else s

/-- A boundary's judgement in Kicking (R134). -/
def judgeKicking (phase : KickPhase) (good : Bool) (s : State) : State :=
  let s := { s with fan := { s.fan.judged good with state := .kicking phase.next } }
  if 5 ≤ s.fan.goodRun then recoverFan s
  else if 5 ≤ s.fan.stallRun && phase.next == .watch then
    if s.fan.kicks < 3 then startKick (s.fan.kicks + 1) s else failFan s
  else s

/-- A boundary's judgement in Failed (R135). -/
def judgeFailed (good : Bool) (s : State) : State :=
  let s := { s with fan := s.fan.judged good }
  if 5 ≤ s.fan.goodRun then bump Ctr.thermalFanRecoveries (recoverFan s) else s

/-- The speed is good when it is at least stallRpm (R133). -/
def speedGood (s : State) : Bool := (settings s).stallRpm ≤ (s.fan.speed : Int)

/-- The new speed is judged (R133). A fan that this boundary took out of Off is not judged by it; one that LEARN
AIRFLOW took out of Off in the window that this boundary closes is judged by it, though the fan had only a part of the
window: R133's "five whole windows" and "at each boundary" leave both open, and this is the model's choice
(log 12). -/
def judgeFan (wasOff : Bool) (s : State) : State :=
  match s.fan.state with
  | .off => s
  | .running => if wasOff then s else judgeRunning (speedGood s) s
  | .kicking phase => judgeKicking phase (speedGood s) s
  | .failed => judgeFailed (speedGood s) s

/-! ### The clog index (R136) -/

/-- A refresh is taken when the clock reaches 120 and every 10 boundaries after (R136). -/
def refreshDue (clock : Nat) : Bool := 120 ≤ clock && (clock - 120) % 10 == 0

/-- The Board value minus the Air value, if both channels are Valid (R136, R138). -/
def boardMinusAir (s : State) : Option Int :=
  match s.temp.board, s.temp.air with
  | .valid b, .valid a => some (b - a)
  | _, _ => none

/-- A refresh's index raises or clears the clog warning (R136). -/
def clogRefreshed (index : Int) (s : State) : State :=
  let s' := { s with fan.clogIndex := some index }
  if (settings s).clogLimit < index then
    if s.fan.clogWarning then s'
    else fanNotice 2 (bump Ctr.thermalClogWarnings { s' with fan.clogWarning := true })
  else { s' with fan.clogWarning := false }

/-- A refresh, skipped without a learned baseline or without both channels (R136). -/
def refreshClog (s : State) : State :=
  if (settings s).baselineLearned = 0 then s
  else match boardMinusAir s with
    | some d => clogRefreshed (clampInt (-1000) 1000 (d - (settings s).baselineDelta)) s
    | none => s

/-- The full-airflow clock moves and any refresh is taken (R136). -/
def moveAirflowClock (s : State) : State :=
  let full := s.fan.state == .running && s.fan.commanded == 100
  let s := { s with fan.airflowClock := if full then s.fan.airflowClock + 1 else 0 }
  if full && refreshDue s.fan.airflowClock then refreshClog s else s

/-! ### The boundary event (R119) -/

/-- The speed window closes: 30 rpm a pulse, saturating at 65535 (R132). -/
def closeSpeedWindow (s : State) : State :=
  { s with fan := { s.fan with speed := min 65535 (s.fan.pulses * 30), pulses := 0 } }

/-- The commanded duty is recomputed and the fan moves between Off and Running (R131, R133). -/
def recomputeDuty (s : State) : State :=
  let d := commandedDuty s
  { s with fan := ({ s.fan with commanded := d.1, runningMark := d.2 }).followDuty }

/-- The fan's part of the boundary (R119). -/
def fanBoundary (s : State) : State :=
  let wasOff := s.fan.state == .off
  moveAirflowClock (judgeFan wasOff (recomputeDuty (closeSpeedWindow s)))

/-- The boundary is due: 1000 ms since the last one (R119, log 22). -/
def boundaryDue (s : State) : Bool := 1000 ≤ elapsed s.heat.periodStart s.clock.ms

/-- HEAT_BOUNDARY (R119): the heaters first, then the fan. -/
def execHeatBoundary (s : State) : Host.Outcome State Fault Refusal :=
  .next (if boundaryDue s then fanBoundary (heaterBoundary s) else s)

/-- TACH_PULSE (R132). -/
def execTachPulse (s : State) : Host.Outcome State Fault Refusal :=
  .next { s with fan.pulses := s.fan.pulses + 1 }

/-! ### The airflow learn (R137, R138) -/

/-- A learn starts: 120 s at commanded duty 100, and a fan in Off goes to Running (R137). -/
def startLearn (t : Instant) (s : State) : State :=
  { s with fan := ({ s.fan with learn := .learning (startTimer t 120000), commanded := 100 }).followDuty }

/-- baselineDelta and baselineLearned of a Settings copy (R138). -/
def learnedInto (d : Int) (t : SettingsTable) : SettingsTable := (t.set 47 d).set 48 1

/-- A completed learn, with `d` the Board value minus the Air value (R138). -/
def completeLearn (d : Int) (s : State) : State :=
  let d := clampInt (-1000) 1000 d
  let s := { s with tables.settings :=
    ⟨learnedInto d s.tables.settings.live, learnedInto d s.tables.settings.staging⟩ }
  bump Ctr.thermalLearnsCompleted
    { s with fan := { s.fan with clogIndex := some 0, clogWarning := false, learn := .idle } }

/-- The learn timer has run out (R138, log 2). -/
def learnDue (s : State) : Bool :=
  match s.fan.learn with
  | .learning t => t.due s.clock.ms
  | _ => false

/-- LEARN_COMPLETE (R138): a learn still running has both channels Valid (log 27). -/
def execLearnComplete (s : State) : Host.Outcome State Fault Refusal :=
  .next (if learnDue s then
    match boardMinusAir s with
    | some d => completeLearn d s
    | none => s
  else s)

end Sys2Proof.Machine
end

