-- ==== Sys2Proof/Machine/Keypad.lean ====
section
/-! DEFINITION. The Keypad Scanner: debounce sets, per-key handling, ghosts, stuck keys, flood (R143 to R155). -/

namespace Sys2Proof.Machine

/-! ### The raw sample and the debounce sets (R143, R144) -/

/-- The number of pressed positions of a raw sample (R153). -/
def pressedCount (raw : BitVec 48) : Nat := (List.finRange 48).countP fun p => raw.getLsbD p

/-- The debounce set for a sample: normal when working Glass is present and at least keyColdTemp (R144). -/
def chooseSet (s : State) : DebounceSet :=
  match workingGlass s with
  | some g => if (settings s).keyColdTemp ≤ g then .normal else .cold
  | none => .cold

def pressThreshold (t : SettingsTable) : DebounceSet → Nat
  | .normal => t.pressCount.toNat
  | .cold => t.coldPressCount.toNat

def releaseThreshold (t : SettingsTable) : DebounceSet → Nat
  | .normal => t.releaseCount.toNat
  | .cold => t.coldReleaseCount.toNat

/-! ### Ghosts (R148, R149) -/

def KeyState.isDown : KeyState → Bool
  | .down _ => true
  | _ => false

/-- The row and the column of a position (R143). -/
def keyRow (p : KeyPos) : Nat := p / 8
def keyCol (p : KeyPos) : Nat := p % 8

/-- The position at a row and a column, if there is one. -/
def keyAt (row col : Nat) : Option KeyPos := if col < 8 then keyPosOfNat (row * 8 + col) else none

/-- Whether the key at a row and a column is among the corners. -/
def cornerAt (corner : KeyPos → Bool) (row col : Nat) : Bool :=
  match keyAt row col with
  | some p => corner p
  | none => false

/-- A key completes a rectangle: there are another row and another column at which the three other corners are
all counted (R148). -/
def completesRectangle (corner : KeyPos → Bool) (p : KeyPos) : Bool :=
  (List.range 6).any fun r' => (List.range 8).any fun c' =>
    r' != keyRow p && c' != keyCol p &&
      cornerAt corner (keyRow p) c' && cornerAt corner r' (keyCol p) && cornerAt corner r' c'

/-- The keys in Down before the sample (R148). -/
def downBefore (keys : Vector KeyState 48) (p : KeyPos) : Bool := keys[p].isDown

/-- The count a key would have as Pressing after a pressed reading: from Up it enters with 1 unless it completes a
rectangle (R146, R148). -/
def pressingCount (keys : Vector KeyState 48) (p : KeyPos) : Option Nat :=
  match keys[p] with
  | .up => if completesRectangle (downBefore keys) p then none else some 1
  | .pressing n => some (n + 1)
  | _ => none

/-- A key meets its press threshold in this sample (R145, R149). -/
def meetsPress (keys : Vector KeyState 48) (raw : BitVec 48) (threshold : Nat) (p : KeyPos) : Bool :=
  raw.getLsbD p && match pressingCount keys p with
    | some n => decide (threshold ≤ n)
    | none => false

/-- The corners of the second ghost test: Down before the sample, or meeting the press threshold in it (R149). -/
def pressCorner (keys : Vector KeyState 48) (raw : BitVec 48) (threshold : Nat) (p : KeyPos) : Bool :=
  downBefore keys p || meetsPress keys raw threshold p

/-! ### One key in one sample (R146 to R152) -/

/-- What happens to a key in a sample beside its new state. -/
inductive KeyHappening where
  | nothing
  | press
  | release
  | synthesizedRelease
  | shortPress
  | ghost
  | recovery
  deriving DecidableEq, Repr

/-- What a sample needs to judge a key: states before it, readings, thresholds, stuck limit in milliseconds (0: no
test), time of the sample. -/
structure SampleView where
  keys : Vector KeyState 48
  raw : BitVec 48
  press : Nat
  release : Nat
  stuckLimit : Nat
  now : Word

/-- A key in Down after the sample's changes takes the stuck test (R151). -/
def stuckTest (v : SampleView) (pressTime : Word) : KeyState × KeyHappening :=
  if v.stuckLimit != 0 && v.stuckLimit < elapsed pressTime v.now then (.stuck 0, .synthesizedRelease)
  else (.down pressTime, .nothing)

/-- A key in Pressing at count `n` in this sample: Down and a Press, or Ambiguous, at the threshold (R146, R149). -/
def pressed (v : SampleView) (p : KeyPos) (n : Nat) : KeyState × KeyHappening :=
  if v.press ≤ n then
    if completesRectangle (pressCorner v.keys v.raw v.press) p then (.ambiguous, .ghost)
    else (.down v.now, .press)
  else (.pressing n, .nothing)

/-- A key's reading is pressed (R146 to R152). -/
def readPressed (v : SampleView) (p : KeyPos) : KeyState × KeyHappening :=
  match v.keys[p] with
  | .up => if completesRectangle (downBefore v.keys) p then (.ambiguous, .ghost) else pressed v p 1
  | .pressing n => pressed v p (n + 1)
  | .down t => stuckTest v t
  | .releasing _ t => stuckTest v t
  | .stuck _ => (.stuck 0, .nothing)
  | .ambiguous => (.ambiguous, .nothing)

/-- A released reading counted toward the release threshold (R147). -/
def released (v : SampleView) (n : Nat) (pressTime : Word) : KeyState × KeyHappening :=
  if v.release ≤ n then (.up, .release) else (.releasing n pressTime, .nothing)

/-- A key's reading is released (R146 to R152). -/
def readReleased (v : SampleView) (p : KeyPos) : KeyState × KeyHappening :=
  match v.keys[p] with
  | .up => (.up, .nothing)
  | .pressing _ => (.up, .shortPress)
  | .down t => released v 1 t
  | .releasing n t => released v (n + 1) t
  | .stuck n => if v.release ≤ n + 1 then (.up, .recovery) else (.stuck (n + 1), .nothing)
  | .ambiguous => (.up, .nothing)

/-- One key handled on its own reading (R143 step 4, R145). -/
def sampleKey (v : SampleView) (p : KeyPos) : KeyState × KeyHappening :=
  if v.raw.getLsbD p then readPressed v p else readReleased v p

/-! ### Outcomes (R155) -/

/-- An outcome handed to the Key Event Unit (R155). -/
inductive KeyOutcome where
  | press (p : KeyPos)
  | release (p : KeyPos) (synthesized : Bool)
  deriving DecidableEq, Repr

def KeyHappening.outcome (h : KeyHappening) (p : KeyPos) : Option KeyOutcome :=
  match h with
  | .press => some (.press p)
  | .release => some (.release p false)
  | .synthesizedRelease => some (.release p true)
  | _ => none

/-- A KEYPAD notice: event and position (section 1.10). -/
def keypadNotice (event : Nat) (p : KeyPos) (s : State) : State :=
  composeNotice topicKeypad [byte event, byte p] s

/-- What a key's happening counts and reports at the scanner (R146, R148, R149, R151, R152). -/
def reportHappening (p : KeyPos) (h : KeyHappening) (s : State) : State :=
  match h with
  | .shortPress => bump Ctr.keysShortPresses s
  | .ghost => bump Ctr.keysGhostKeys s
  | .synthesizedRelease => keypadNotice 1 p (bump Ctr.keysStuckKeys s)
  | .recovery => keypadNotice 2 p (bump Ctr.keysStuckRecoveries s)
  | _ => s

/-- The sample as the keys see it (R145). -/
def sampleView (set : DebounceSet) (raw : BitVec 48) (s : State) : SampleView where
  keys := s.keypad.keys
  raw := raw
  press := pressThreshold (settings s) set
  release := releaseThreshold (settings s) set
  stuckLimit := (settings s).stuckTime.toNat * 1000
  now := s.clock.ms

/-- The 48 keys handled together in a Normal keypad, with what is counted and reported in ascending order of
position (R145, log 11), and the outcomes. -/
def handleKeys (set : DebounceSet) (raw : BitVec 48) (s : State) : State × List KeyOutcome :=
  let v := sampleView set raw s
  let results := Vector.ofFn fun p : KeyPos => sampleKey v p
  let s := { s with keypad.keys := Vector.ofFn fun p : KeyPos => results[p].1 }
  ((List.finRange 48).foldl (fun s p => reportHappening p results[p].2 s) s,
    (List.finRange 48).filterMap fun p => results[p].2.outcome p)

/-! ### Flood (R153, R154) -/

/-- A key whose press stands reported: Down or Releasing (section 7.3). -/
def KeyState.isHeld : KeyState → Bool
  | .down _ => true
  | .releasing _ _ => true
  | _ => false

/-- The keypad enters Flooded: every key goes to Up and every reported press is withdrawn (R153). -/
def enterFlood (s : State) : State × List KeyOutcome :=
  let withdrawn := (List.finRange 48).filter fun p => s.keypad.keys[p].isHeld
  let s := { s with keypad := { s.keypad with
    keys := Vector.replicate 48 .up, flooded := true, quietStart := none } }
  (bumpBy Ctr.keysSynthesizedReleases withdrawn.length (bump Ctr.keysFloods s),
    withdrawn.map fun p => .release p true)

/-- A sample while the keypad is Flooded feeds the quiet run (R154). -/
def feedQuietRun (raw : BitVec 48) (s : State) : State :=
  if raw = 0 then
    let start := s.keypad.quietStart.getD s.clock.ms
    if (settings s).floodClear.toNat ≤ elapsed start s.clock.ms then
      { s with keypad := { s.keypad with flooded := false, quietStart := none } }
    else { s with keypad.quietStart := some start }
  else { s with keypad.quietStart := none }

/-- The debounce set is noted, and a change from the last sample's is counted (R144, R158). -/
def noteSet (set : DebounceSet) (s : State) : State :=
  let switched := match s.keypad.lastSet with
    | some old => old != set
    | none => false
  let s := { s with keypad.lastSet := some set }
  if switched then bump Ctr.keysDebounceSetSwitches s else s

/-- The scanner's handling of a raw sample, with the outcomes handed over (R143). -/
def scanSample (raw : BitVec 48) (s : State) : State × List KeyOutcome :=
  let set := chooseSet s
  let s := noteSet set s
  if s.keypad.flooded then (feedQuietRun raw s, [])
  else if (settings s).floodCount ≤ (pressedCount raw : Int) then enterFlood s
  else handleKeys set raw s

end Sys2Proof.Machine
end

