-- ==== Sys2Proof/Machine/KeyEvents.lean ====
section
/-! DEFINITION. The Key Event Unit: events, delivery, repeats and chords, and the keypad sample event
(R160 to R173, R143). -/

namespace Sys2Proof.Machine

/-! ### Delivery (R165, R166, R169) -/

/-- An event is offered to the Key Event Queue (R166). -/
def offerKeyEvent (e : KeyEvent) (s : State) : State :=
  if s.keyUnit.queue.length < 16 then
    { s with keyUnit := { s.keyUnit with
        queue := s.keyUnit.queue ++ [{ e with lost := e.lost || s.keyUnit.lossPending }]
        lossPending := false } }
  else bump Ctr.keysQueueLosses { s with keyUnit.lossPending := true }

/-- An event goes where the liveness state at the event sends it (R165, R169). -/
def deliver (e : KeyEvent) (fieldRelevant : Bool) (t : Instant) (s : State) : State :=
  if hostUp s then offerKeyEvent e s
  else if e.edge == .press && fieldRelevant then offerFieldKey e.code t s
  else bump Ctr.keysEventsDiscardedHostDown s

/-- An event record as produced: its stamp is the time base modulo 65536, its lost mark 0 (R164). -/
def keyEvent (code : Byte) (edge : Edge) (synthesized : Bool) (t : Instant) : KeyEvent :=
  ⟨code, edge, synthesized, t.ms.setWidth 16, false⟩

def setRecord (p : KeyPos) (r : Option KeyRecord) (s : State) : State :=
  { s with keyUnit.records := s.keyUnit.records.set p r }

/-- A Press outcome (R161). -/
def pressOutcome (p : KeyPos) (t : Instant) (s : State) : State :=
  let e := s.tables.keyMap.live[p]
  if e.code != 0 && e.condition.holds s then
    let timer := if e.rep then some (startTimer t (settings s).repeatDelay.toNat) else none
    let s := bump Ctr.keysPressEvents (setRecord p (some ⟨e.code, e.rep, timer⟩) s)
    deliver (keyEvent e.code .press false t) e.fieldRelevant t s
  else bump Ctr.keysPressesNotReported s

/-- A Release outcome (R162). -/
def releaseOutcome (p : KeyPos) (synthesized : Bool) (t : Instant) (s : State) : State :=
  match s.keyUnit.records[p] with
  | some r =>
    let s := bump Ctr.keysReleaseEvents (setRecord p none s)
    deliver (keyEvent r.code .release synthesized t) false t s
  | none => s

def takeOutcome (t : Instant) (s : State) : KeyOutcome → State
  | .press p => pressOutcome p t s
  | .release p synthesized => releaseOutcome p synthesized t s

/-- A sample's outcomes are taken in order; only then is a KEY notice considered (R164, R167). -/
def handOverOutcomes (outcomes : List KeyOutcome) (t : Instant) (s : State) : State :=
  composeKeyNotices (outcomes.foldl (takeOutcome t) s)

/-! ### Repeats (R163) -/

/-- REPEAT_EXPIRY (R163): a Repeat event, and the timer starts again for repeatPeriod. -/
def execRepeatExpiry (p : KeyPos) (s : State) : Host.Outcome State Fault Refusal :=
  .next (match s.keyUnit.records[p] with
    | some r =>
      if r.rep && timerDue r.timer s.clock.ms then
        let t := s.clock
        let timer := startTimer t (settings s).repeatPeriod.toNat
        let s := bump Ctr.keysRepeatEvents (setRecord p (some { r with timer := some timer }) s)
        composeKeyNotices (deliver (keyEvent r.code .rep false t) false t s)
      else s
    | none => s)

/-! ### Chords (R171, R172) -/

/-- Every member of the chord is held at the scanner (R171). -/
def chordHeld (e : ChordEntry) (s : State) : Bool := e.members.all fun p => s.keypad.keys[p].isHeld

def setChord (c : ChordId) (x : ChordState) (s : State) : State :=
  { s with keyUnit.chords := s.keyUnit.chords.set c x }

/-- A chord after a sample (R171); an entry with valid no is always Idle (R170). -/
def updateChord (t : Instant) (s : State) (c : ChordId) : State :=
  let e := s.tables.chord.live[c]
  if e.valid then
    match s.keyUnit.chords[c], chordHeld e s with
    | .idle, true => setChord c (.holding (startTimer t e.holdTime)) s
    | .holding _, false => bump Ctr.keysChordsAbandoned (setChord c .idle s)
    | .fired, false => setChord c .idle s
    | _, _ => s
  else setChord c .idle s

def updateChords (t : Instant) (s : State) : State := (List.finRange 8).foldl (updateChord t) s

/-- Field Permit is granted, or its timer starts again, for permitTime (R180). -/
def grantPermit (t : Instant) (s : State) : State :=
  { s with mgmt.permit := some (startTimer t ((settings s).permitTime.toNat * 60000)) }

/-- A restart request from a chord, ignored and counted in an unpowered state (R90). -/
def chordRestart (cycle : Bool) (t : Instant) (s : State) : State :=
  if hostPowerEnable s then uncountedRestart .operatorChord cycle t s
  else bump Ctr.livenessIgnoredOperatorRequests s

/-- A release from a chord, ignored and counted outside OFF and LATCHED (R78). -/
def chordRelease (t : Instant) (s : State) : State :=
  if s.live.state.isReleasable then releaseHost t s else bump Ctr.livenessIgnoredOperatorRequests s

/-- The action of a chord handed to its block (R172). -/
def chordAct (e : ChordEntry) (t : Instant) (s : State) : State :=
  match e.action with
  | .restartHost => chordRestart false t s
  | .powerCycleHost => chordRestart true t s
  | .releaseHost => chordRelease t s
  | .grantPermit => grantPermit t s
  | .flagPattern => patternFlags e.pattern s
  | .noticeOnly => s

/-- A chord fires: its notice first, then its action if its condition is true (R172). -/
def fireChord (c : ChordId) (t : Instant) (s : State) : State :=
  let e := s.tables.chord.live[c]
  let taken := e.condition.holds s
  let s := setChord c .fired s
  let s := composeNotice topicChord [byte c, byte e.action.code, byte (bit taken)] s
  if taken then chordAct e t (bump Ctr.keysChordActionsTaken s) else bump Ctr.keysChordsRefused s

/-- CHORD_FIRE (R172): taken in Holding when the hold timer has run out (R171). -/
def execChordFire (c : ChordId) (s : State) : Host.Outcome State Fault Refusal :=
  .next (match s.keyUnit.chords[c] with
    | .holding hold => if hold.due s.clock.ms then fireChord c s.clock s else s
    | _ => s)

/-! ### The sample event (R143) -/

/-- The sample event is due (R143, log 22). -/
def keypadDue (s : State) : Bool := s.keypad.interval ≤ elapsed s.keypad.lastSample s.clock.ms

/-- The pace goes on: the interval after this event is the scanInterval that stands (R156). -/
def nextKeypadSample (s : State) : State :=
  { s with keypad := { s.keypad with
      lastSample := s.keypad.lastSample + BitVec.ofNat 32 s.keypad.interval
      interval := (settings s).scanInterval.toNat } }

/-- KEYPAD_SAMPLE (R143): the scan, the handover (R155), and the chords (R171). -/
def execKeypadSample (pressed : BitVec 48) (s : State) : Host.Outcome State Fault Refusal :=
  .next (if keypadDue s then
    let r := scanSample pressed (nextKeypadSample s)
    updateChords s.clock (handOverOutcomes r.2 s.clock r.1)
  else s)

end Sys2Proof.Machine
end

