-- ==== Sys2Proof/Machine/Replies.lean ====
section
/-! DEFINITION. Management replies (R177, R18, R19). -/

namespace Sys2Proof.Machine

/-- The results of section 9.1. -/
inductive Result where
  | done
  | frozen
  | noPermit
  | badArgument
  | invalid
  | busy
  | unknownCommand
  | wrongState
  deriving DecidableEq, Repr

def Result.code : Result → Nat
  | .done => 0
  | .frozen => 1
  | .noPermit => 2
  | .badArgument => 3
  | .invalid => 4
  | .busy => 5
  | .unknownCommand => 6
  | .wrongState => 7

/-- The station of a management reply: 255 on the Host Link, mgmtStation as it stands on the Field Link (R177). -/
def replyStation (p : Port) (s : State) : Byte :=
  match p with
  | .host => 255
  | .field => mgmtStation s

/-- The bytes of a management reply: class Reply, flags clear, the command's topic and tag, the result, the data
(R177). -/
def replyBytes (code : Nat) (c : Command) (r : Result) (data : List Byte) (s : State) : List Byte :=
  frameBytes (replyStation c.port s) 1 (byte code) c.tag (byte r.code :: data)

/-- Whether the transmit queue of a port takes a further item (R18, R19). -/
def replyQueueRoom (p : Port) (s : State) : Bool :=
  match p with
  | .host => hostQueueRoom s
  | .field => fieldQueueRoom s

/-- A buffer joins the transmit queue of a port (R18, R19). -/
def enqueueReplyBuffer (p : Port) (b : BufferId) (s : State) : State :=
  match p with
  | .host => enqueueHost b s
  | .field => enqueueFieldBuffer b s

/-- A management reply is written into its command's buffer and queued on the port of arrival; a refused one is
dropped, counted, and its buffer returned (R177, R18, R19). -/
def replyTo (code : Nat) (c : Command) (r : Result) (data : List Byte) (s : State) : State :=
  if replyQueueRoom c.port s then
    enqueueReplyBuffer c.port c.buffer
      (setBuffer c.buffer { s.pool[c.buffer] with bytes := replyBytes code c r data s } s)
  else releaseBuffer c.buffer (bump (Ctr.droppedManagementReplies c.port) s)

end Sys2Proof.Machine
end

