-- ==== Sys2Proof/Machine/Routing.lean ====
section
/-! DEFINITION. The Frame Router and the completion of a frame (R7, R14, R33 to R48). -/

namespace Sys2Proof.Machine

/-- A frame at the router: the properties it is routed by (section 2.4), its buffer, payload and arrival. -/
structure RoutedFrame where
  buffer : BufferId
  source : Port
  broadcast : Bool
  own : Bool
  cls : FrameClass
  topic : Byte
  tag : Byte
  payload : List Byte
  arrival : Instant
  deriving DecidableEq, Repr

/-- A field Request to ownStation. -/
def RoutedFrame.isOwnRequest (f : RoutedFrame) : Bool :=
  f.source == .field && f.cls == .request && !f.broadcast

/-- A field Request to station 0. -/
def RoutedFrame.isBroadcastRequest (f : RoutedFrame) : Bool :=
  f.source == .field && f.cls == .request && f.broadcast

def RoutedFrame.isHostReply (f : RoutedFrame) : Bool := f.source == .host && f.cls == .reply

/-! ### Lookup (R37) -/

def ClassMatch.accepts : ClassMatch → FrameClass → Bool
  | .request, .request => true
  | .reply, .reply => true
  | .notice, .notice => true
  | .any, _ => true
  | _, _ => false

def StationMatch.accepts : StationMatch → Bool → Bool
  | .own, isBroadcast => !isBroadcast
  | .broadcast, isBroadcast => isBroadcast
  | .any, _ => true

/-- The entry satisfies every test of R37 for the frame. -/
def RouteEntry.wins (e : RouteEntry) (f : RoutedFrame) (s : State) : Bool :=
  e.valid && e.source == f.source && e.cls.accepts f.cls && e.station.accepts f.broadcast &&
    e.topicLow.toNat ≤ f.topic.toNat && f.topic.toNat ≤ e.topicHigh.toNat && e.condition.holds s

/-- The winning entry: the lowest index that satisfies the tests (R37). -/
def lookup (f : RoutedFrame) (s : State) : Option RouteId :=
  (List.finRange 32).find? fun i => s.tables.route.live[i].wins f s

/-- The winning entry's hit counter goes up by one (R33, R38). -/
def hit (i : RouteId) (s : State) : State :=
  { s with tables.hits := s.tables.hits.set i (satAdd s.tables.hits[i] 1) }

/-! ### Actions (R40 to R44) -/

/-- H of a reply to a request: liveness is not HostUp at its arrival. -/
def hostDown (s : State) : Bool := !hostUp s

/-- The exchange-full path (R58). -/
def exchangeFull (f : RoutedFrame) (s : State) : State :=
  let s := composeReply .exchangeFull f.topic f.tag (hostDown s) f.arrival s
  releaseBuffer f.buffer (bump Ctr.exchangesExchangeFullReplies s)

/-- Forward of a field Request to ownStation (R40, R51). -/
def forwardRequest (f : RoutedFrame) (s : State) : State :=
  match exchangeFor f.tag s with
  | some i =>
    if hostQueueRoom s then openExchange i f.tag f.topic f.arrival (enqueueHost f.buffer s)
    else exchangeFull f s
  | none => exchangeFull f s

/-- Forward of a field Request to station 0 (R41). -/
def forwardBroadcast (f : RoutedFrame) (s : State) : State :=
  if hostQueueRoom s then enqueueHost f.buffer s
  else releaseBuffer f.buffer (bump Ctr.routingRefusedBroadcasts s)

/-- A host Reply is offered to the Field Transmit Queue (R42, R19). -/
def forwardReply (f : RoutedFrame) (s : State) : State :=
  if fieldQueueRoom s then enqueueFieldBuffer f.buffer s
  else releaseBuffer f.buffer (bump Ctr.droppedForwardedReplies s)

/-- A Forward carried out as a drop on a frame that Forward cannot carry (R41). -/
def dropUnforwardable (f : RoutedFrame) (s : State) : State :=
  releaseBuffer f.buffer (bump Ctr.routingUnforwardableFrames s)

/-- Drop (R44). -/
def routeDrop (f : RoutedFrame) (s : State) : State :=
  releaseBuffer f.buffer (bump Ctr.routingRouteDrops s)

/-- Drop by default handling (R39). -/
def defaultDrop (f : RoutedFrame) (s : State) : State :=
  releaseBuffer f.buffer (bump Ctr.routingDefaultDrops s)

/-- Answer (R43); a commit accepts it only for own Requests, and any other frame is dropped (log 18). -/
def routeAnswer (f : RoutedFrame) (s : State) : State :=
  if f.isOwnRequest then releaseBuffer f.buffer (composeReply .answer f.topic f.tag (hostDown s) f.arrival s)
  else dropUnforwardable f s

/-- Forward by the kind of the frame (R40 to R42). -/
def routeForward (f : RoutedFrame) (s : State) : State :=
  if f.isOwnRequest then forwardRequest f s
  else if f.isBroadcastRequest then forwardBroadcast f s
  else if f.isHostReply then forwardReply f s
  else dropUnforwardable f s

/-- The action of the winning entry (R38). -/
def routeAction (e : RouteEntry) (f : RoutedFrame) (s : State) : State :=
  match e.action with
  | .forward => routeForward f s
  | .drop => routeDrop f s
  | .answer => routeAnswer f s

/-- The capture modifier of the winning entry of a host Reply (R45). -/
def routeCapture (e : RouteEntry) (f : RoutedFrame) (s : State) : State :=
  if e.capture && f.isHostReply then capture f.topic f.payload f.arrival s else s

/-- The feed modifier, after the action (R46). -/
def routeFeed (e : RouteEntry) (f : RoutedFrame) (s : State) : State :=
  if e.feed && f.source == .host then trafficHeartbeat f.arrival s else s

/-- The exchange a Waiting-matched host Reply ends, once its action has been carried out (R53). -/
def endMatched (matched : Option ExchangeId) (s : State) : State :=
  match matched with
  | some i => answerExchange i s
  | none => s

/-- Default handling of a frame that no entry wins (R39). -/
def defaultHandling (f : RoutedFrame) (s : State) : State :=
  if f.isOwnRequest then
    if hostUp s then forwardRequest f s
    else
      let s := bump Ctr.routingDefaultEmptyReplies s
      releaseBuffer f.buffer (offerBareReply f.topic f.tag ⟨false, true, false, true⟩ s)
  else if f.isBroadcastRequest then
    if hostUp s then forwardBroadcast f s else defaultDrop f s
  else if f.isHostReply then forwardReply f s
  else defaultDrop f s

/-- A lookup and what follows for a frame that is not a Late-matched Reply: `matched` is the Waiting entry of a host
Reply (R37 to R46, R53). -/
def routeByLookup (f : RoutedFrame) (matched : Option ExchangeId) (s : State) : State :=
  match lookup f s with
  | some i =>
    let e := s.tables.route.live[i]
    let s := patternFlags e.pattern (hit i s)
    let s := routeAction e f (routeCapture e f s)
    routeFeed e f (endMatched matched s)
  | none => endMatched matched (defaultHandling f s)

/-! ### Late replies (R45, R55) -/

/-- The late reply is counted for the Restart Log (R94). -/
def reportLateReply (s : State) : State :=
  { s with live.lateReplies := if s.live.lateReplies = 255 then 255 else s.live.lateReplies + 1 }

/-- A host Reply matched to a Late entry: the winner's hit and capture only, then the count and the LATE notice
(R45, R55). -/
def routeLate (f : RoutedFrame) (r : Request) (s : State) : State :=
  let s := match lookup f s with
    | some i => routeCapture s.tables.route.live[i] f (hit i s)
    | none => s
  let s := releaseBuffer f.buffer s
  let s := reportLateReply (bump Ctr.exchangesLateReplies s)
  composeNotice topicLate ([r.tag, r.topic] ++ be16 (min 65535 (elapsed r.openTime f.arrival.ms))) s

/-! ### The way to a lookup (R34 to R36) -/

/-- A keyTopic request while liveness is not HostUp (R34). -/
def isKeyListRequest (f : RoutedFrame) (s : State) : Bool :=
  f.isOwnRequest && f.topic.toNat == (settings s).keyTopic.toNat && !hostUp s

/-- A key-list reply is composed and offered (R34, R70). -/
def answerKeyList (f : RoutedFrame) (s : State) : State :=
  let (d, s) := copyKeyList f.topic f.tag f.arrival s
  bump Ctr.routingKeyListRequests (releaseBuffer f.buffer (offerReply d s))

/-- A host Reply is unsolicited (R36). -/
def dropUnsolicited (f : RoutedFrame) (s : State) : State :=
  releaseBuffer f.buffer (bump Ctr.routingUnsolicitedReplies s)

/-- A host Reply: matched Waiting, matched Late, or unsolicited (R36). -/
def routeHostReply (f : RoutedFrame) (s : State) : State :=
  if f.own then
    match waitingWith f.tag s with
    | some i => routeByLookup f (some i) s
    | none =>
      match lateWith f.tag s with
      | some i =>
        match s.exchanges[i] with
        | .late r _ => routeLate f r s
        | _ => dropUnsolicited f s
      | none => dropUnsolicited f s
  else dropUnsolicited f s

/-- A field Request to ownStation: key list, retry, or lookup (R34, R35). -/
def routeOwnRequest (f : RoutedFrame) (s : State) : State :=
  if isKeyListRequest f s then answerKeyList f s
  else match waitingWith f.tag s with
    | some i => releaseBuffer f.buffer (absorbRetry i s)
    | none => routeByLookup f none s

/-- The router's whole act on a frame (section 2.4). -/
def routeFrame (f : RoutedFrame) (s : State) : State :=
  if f.isOwnRequest then routeOwnRequest f s
  else if f.isHostReply then routeHostReply f s
  else routeByLookup f none s

/-! ### Completion of a frame (R14, R7) -/

/-- The frame in a buffer as the router sees it. -/
def routedFrame (b : BufferId) (a : Address) (s : State) : RoutedFrame :=
  let f := s.pool[b]
  { buffer := b, source := f.port, broadcast := a == .broadcast, own := a == .own, cls := frameClass f.bytes,
    topic := frameTopic f.bytes, tag := frameTag f.bytes, payload := framePayload f.bytes, arrival := f.arrival }

/-- A misaddressed frame is discarded and counted (R7). -/
def discardMisaddressed (p : Port) (b : BufferId) (s : State) : State :=
  releaseBuffer b (bump (Ctr.misaddressedFrames p) s)

/-- A command frame reaches the Management Unit: an unknown code is answered at once (R177), any other command
waits to be carried out by its own step (log 6). -/
def handToManagement (b : BufferId) (s : State) : State :=
  let code := (frameTopic s.pool[b].bytes).toNat
  if 1 ≤ code ∧ code ≤ 0x11 then { s with mgmt.waiting := s.mgmt.waiting ++ [b] }
  else replyTo code (commandIn b s) .unknownCommand [] s

/-- A valid frame goes where R7 sends it. -/
def dispatchFrame (p : Port) (b : BufferId) (a : Address) (s : State) : State :=
  match a with
  | .management =>
    if frameClass s.pool[b].bytes == .command then handToManagement b s else discardMisaddressed p b s
  | _ => routeFrame (routedFrame b a s) s

/-- A frame whose check agrees: stamped, Working, counted and sent on (R14). -/
def acceptFrame (p : Port) (b : BufferId) (a : Address) (s : State) : State :=
  let s := setBuffer b { s.pool[b] with state := .working, arrival := s.clock } s
  dispatchFrame p b a (bump (Ctr.validFrames p) s)

/-- A frame whose check differs (R14). -/
def rejectFrame (p : Port) (b : BufferId) (s : State) : State :=
  releaseBuffer b (bump (Ctr.checkErrors p) s)

/-- The buffer and station class of a frame in Filling whose last check byte has arrived (R10, R14). -/
def completedFrame (p : Port) (s : State) : Option (BufferId × Address) :=
  match (s.rx p).assembler with
  | .filling b a => if frameIsComplete s.pool[b].bytes then some (b, a) else none
  | _ => none

/-- The completion of a port's frame; without a completed frame nothing happens (R14). -/
def completeFrame (p : Port) (s : State) : State :=
  match completedFrame p s with
  | some (b, a) =>
    let s := setAssembler p .idle s
    if checkAgrees s.pool[b].bytes then acceptFrame p b a s else rejectFrame p b s
  | none => s

/-- FRAME_COMPLETE (R14). -/
def execFrameComplete (p : Port) (s : State) : Host.Outcome State Fault Refusal := .next (completeFrame p s)

end Sys2Proof.Machine
end

