-- ==== Sys2Proof/Machine/Resets.lean ====
section
/-! DEFINITION. The Settings Store and the three reset kinds (R187 to R190, R26, R27, R49, R60, R68, R98 to R100,
R117, R118, R141, R142, R158, R159, R175, R176). -/

namespace Sys2Proof.Machine

/-! ### The store (R187, R188) -/

/-- An image of a table with its check over the image bytes (R187). -/
def imageOf {α : Type} (bytes : α → List Byte) (t : α) : StoredImage α := ⟨t, crc16 (bytes t)⟩

/-- The table of an image that passes its check (R188). -/
def passing {α : Type} (bytes : α → List Byte) (i : Option (StoredImage α)) : Option α :=
  match i with
  | some i => if i.check = crc16 (bytes i.contents) then some i.contents else none
  | none => none

/-- Every table as a load gives it: the image if it passes, otherwise the factory defaults (R188). -/
def loadTables (st : Store) : Tables where
  route := .both ((passing routeImage st.route).getD factoryRoutes)
  hits := Vector.replicate 32 0
  keyMap := .both ((passing keyMapImage st.keyMap).getD factoryKeyMap)
  chord := .both ((passing chordImage st.chord).getD factoryChords)
  curveA := .both ((passing curveImage st.curveA).getD factoryCurveA)
  curveB := .both ((passing curveImage st.curveB).getD factoryCurveB)
  settings := .both ((passing settingsImage st.settings).getD factorySettings)
  proxy := .both ((passing proxyImage st.proxy).getD factoryProxy)

/-- The DefaultsInUse marks after a load, bit (id − 1) for table id (R188, section 9.8). -/
def loadMarks (st : Store) : BitVec 7 :=
  BitVec.ofBoolListLE [(passing routeImage st.route).isNone, (passing keyMapImage st.keyMap).isNone,
    (passing chordImage st.chord).isNone, (passing curveImage st.curveA).isNone,
    (passing curveImage st.curveB).isNone, (passing settingsImage st.settings).isNone,
    (passing proxyImage st.proxy).isNone]

/-- A reset at power-on or at the reset line cuts a running store write: that image is bad (R188). -/
def cutWrite (st : Store) : Store :=
  let st' := { st with writing := none }
  match st.writing with
  | none => st'
  | some (.route _) => { st' with route := none }
  | some (.keyMap _) => { st' with keyMap := none }
  | some (.chord _) => { st' with chord := none }
  | some (.curveA _) => { st' with curveA := none }
  | some (.curveB _) => { st' with curveB := none }
  | some (.settings _) => { st' with settings := none }
  | some (.proxy _) => { st' with proxy := none }

/-- The identifier of the table being written (section 9.4). -/
def StoreJob.id : StoreJob → Nat
  | .route _ => 1
  | .keyMap _ => 2
  | .chord _ => 3
  | .curveA _ => 4
  | .curveB _ => 5
  | .settings _ => 6
  | .proxy _ => 7

/-- The captured image and its check stand in the store, and the store is Idle (R187). -/
def finishWrite (j : StoreJob) (st : Store) : Store :=
  let st := { st with writing := none }
  match j with
  | .route t => { st with route := some (imageOf routeImage t) }
  | .keyMap t => { st with keyMap := some (imageOf keyMapImage t) }
  | .chord t => { st with chord := some (imageOf chordImage t) }
  | .curveA t => { st with curveA := some (imageOf curveImage t) }
  | .curveB t => { st with curveB := some (imageOf curveImage t) }
  | .settings t => { st with settings := some (imageOf settingsImage t) }
  | .proxy t => { st with proxy := some (imageOf proxyImage t) }

/-- A table's DefaultsInUse mark is cleared. -/
def clearMark (id : Nat) (marks : BitVec 7) : BitVec 7 := marks &&& ~~~(1#7 <<< (id - 1))

/-- STORE_WRITE_COMPLETE (R187). -/
def execStoreWriteComplete (s : State) : Host.Outcome State Fault Refusal :=
  .next (match s.store.writing with
    | some j => { s with
        store := finishWrite j s.store
        mgmt.defaultsInUse := clearMark j.id s.mgmt.defaultsInUse }
    | none => s)

/-! ### Power-on and reset-line reset (R98, R99) -/

/-- The flags that initialFlags gives (R28). -/
def initialFlagSet (t : SettingsTable) : BitVec 8 := BitVec.ofInt 8 t.initialFlags

/-- Every block at its initial state over the loaded tables, before the autoStart step; the store, the cutoff line
and the waiting commands stay, and `log` is the Restart Log to start from (R26, R49, R60, R61, R69, R98, R117, R141,
R158, R175, R190). -/
def initialState (log : RestartLog) (s : State) : State :=
  let store := cutWrite s.store
  let tables := loadTables store
  let set := tables.settings.live
  let gap := set.heatGap.toNat
  { pending := s.pending
    hostPort := { rx := { rate := .ofCode set.hostRate } }
    fieldPort := { rx := { rate := .ofCode set.fieldRate } }
    flags := initialFlagSet set
    log := log
    heat := { current := { g := gap }, pending := { g := gap },
              cutoffLine := s.heat.cutoffLine, cutoffMarks := s.heat.cutoffLine }
    keypad := { interval := set.scanInterval.toNat }
    mgmt := { defaultsInUse := loadMarks store }
    tables := tables
    store := store }

/-- The autoStart step, part of the reset (R77). -/
def autoStart (s : State) : State :=
  if (settings s).autoStart != 0 then enterColdHold s.clock s else s

/-- POWER_ON_RESET (R98): the Restart Log is empty. -/
def execPowerOnReset (s : State) : Host.Outcome State Fault Refusal :=
  .next (autoStart (initialState {} s))

/-- The ExternalReset record: time 0, the uptime and late-reply count that stood, the fault marker (R99). -/
def externalResetRecord (s : State) : LogRecord :=
  ⟨s.log.nextSeq, .externalReset, .powerOff, 0, uptimeAt s.live s.clock, faultMarker, s.live.lateReplies, false⟩

/-- The Restart Log after a reset-line reset: kept, with a record if the host was powered (R99). -/
def logAfterLineReset (s : State) : RestartLog :=
  if hostPowerEnable s then s.log.append (externalResetRecord s) else s.log

/-- RESET_LINE_RESET (R99). -/
def execResetLineReset (s : State) : Host.Outcome State Fault Refusal :=
  .next (autoStart (initialState (logAfterLineReset s) s))

/-! ### In-band reset (R189) -/

/-- What a discarded item of the Field Transmit Queue holds is undone (R27). -/
def discardItem (s : State) : FieldItem → State
  | .buffer _ => s
  | .reply d => undoDescriptor d s

/-- The items of the Field Port: the one being sent, then the queue. -/
def fieldItems (s : State) : List FieldItem :=
  (s.fieldPort.sending.map (·.item)).toList ++ s.fieldPort.queue

/-- The proxy halves after the reload: entries whose setup differs are emptied (R68). -/
def proxyAfterReload (old new : ProxySetupTable) (p : Vector ProxyRuntime 16) : Vector ProxyRuntime 16 :=
  Vector.ofFn fun e : ProxyId => p[e].afterSetup old[e] new[e]

/-- Ports and pool at the in-band reset: assemblers Idle, transmissions cut, queues emptied, buffers Free, what
descriptors held undone (R27). The rates follow the reloaded table. -/
def resetPorts (set : SettingsTable) (s : State) : State :=
  let s := (fieldItems s).foldl discardItem s
  { s with
    pool := Vector.replicate 24 {}
    hostPort := { rx := { rate := .ofCode set.hostRate } }
    fieldPort := { rx := { rate := .ofCode set.fieldRate } } }

/-- Keypad and Key Event Unit at the in-band reset (R159, R176). A Holding chord that becomes Idle is not counted as
abandoned, which R176 leaves open beside R174's row: the model's choice (log 40). -/
def resetKeys (s : State) : State :=
  let s := flushKeyQueue s
  { s with
    keypad := { s.keypad with keys := Vector.replicate 48 .up, flooded := false, quietStart := none }
    keyUnit := {} }

/-- The in-band reset takes effect (R189, R27, R28, R49, R60, R68, R100, R118, R142, R159, R176). -/
def inBandReset (s : State) : State :=
  let tables := loadTables s.store
  let set := tables.settings.live
  let s := resetKeys (resetPorts set s)
  let s := { s with
    exchanges := Vector.replicate 8 .free
    proxy := proxyAfterReload s.tables.proxy.live tables.proxy.live s.proxy
    flags := initialFlagSet set
    tables := tables
    mgmt := { s.mgmt with waiting := [], resetPending := none, defaultsInUse := loadMarks s.store } }
  blockNotAllowed s

end Sys2Proof.Machine
end

