-- ==== Sys2Proof/Machine/Links.lean ====
section
/-! DEFINITION. The two ports: receive assembly, transmission, line rates (R2, R3, R8 to R13, R21 to R24). -/

namespace Sys2Proof.Machine

/-! ### Receive assembly (R8 to R13) -/

/-- How a station stands against the stations current as its character arrives (R6, R7, log 32). -/
def stationAddress (p : Port) (station : Byte) (s : State) : Address :=
  match p with
  | .host => if station = 255 then .management else if station = ownStation s then .own else .other
  | .field =>
    if station = mgmtStation s then .management
    else if station = ownStation s then .own
    else if station = 0 then .broadcast
    else .other

/-- The station filter lets a frame in: any station at the Host Port, a known one at the Field Port (R8). -/
def passesFilter (p : Port) (a : Address) : Bool :=
  match p with
  | .host => true
  | .field => a != .other

/-- A buffer claimed for a frame: Filling, with its port of arrival and the station as byte 0 (R8). -/
def beginFilling (p : Port) (b : BufferId) (station : Byte) (a : Address) (s : State) : State :=
  setAssembler p (.filling b a) (setBuffer b { state := .filling, port := p, bytes := [station] } s)

/-- A failed claim: the frame is discarded whole and counted (R8). -/
def discardNoBuffer (p : Port) (s : State) : State :=
  setAssembler p .skipping (bump (Ctr.noBufferDiscards p) s)

/-- A good marker character starts a frame: station filter, then a claim that needs 3 Free buffers (R8). -/
def startFrame (p : Port) (station : Byte) (s : State) : State :=
  let a := stationAddress p station s
  if passesFilter p a then
    match firstFree s with
    | some b => if 3 ≤ freeCount s then beginFilling p b station a s else discardNoBuffer p s
    | none => discardNoBuffer p s
  else setAssembler p .skipping s

/-- The frame in Filling ends and its buffer returns to Free (R10 to R13). -/
def dropFilling (p : Port) (b : BufferId) (a : Assembler) (id : CounterId) (s : State) : State :=
  releaseBuffer b (bump id (setAssembler p a s))

/-- A good plain character in Filling is appended; as byte 4 it is checked as the length (R10). -/
def appendByte (p : Port) (b : BufferId) (x : Byte) (s : State) : State :=
  let bytes := s.pool[b].bytes ++ [x]
  if bytes.length = 5 ∧ 32 < x.toNat then dropFilling p b .skipping (Ctr.formatErrors p) s
  else setBuffer b { s.pool[b] with bytes := bytes } s

/-- A good marker character (R8, R11). -/
def takeMarker (p : Port) (x : Byte) (s : State) : State :=
  match (s.rx p).assembler with
  | .filling b _ => startFrame p x (dropFilling p b .idle (Ctr.cutFrames p) s)
  | _ => startFrame p x s

/-- A good plain character (R9, R10). -/
def takePlain (p : Port) (x : Byte) (s : State) : State :=
  match (s.rx p).assembler with
  | .idle => setAssembler p .skipping (bump (Ctr.strayCharacters p) s)
  | .skipping => s
  | .filling b _ => appendByte p b x s

/-- A bad character (R12). -/
def takeBad (p : Port) (s : State) : State :=
  match (s.rx p).assembler with
  | .filling b _ => dropFilling p b .skipping (Ctr.framingErrors p) s
  | _ => bump (Ctr.framingErrors p) s

/-- The silence starts again at the end of the character's stop bit (R3). -/
def restartSilence (p : Port) (s : State) : State := setRx p { s.rx p with busy := false, silence := 0 } s

/-- The silence ends at the start bit of a character (R3). -/
def endSilence (p : Port) (s : State) : State := setRx p { s.rx p with busy := true, silence := 0 } s

/-- A character at a port that hears it (R2). -/
def takeCharacter (p : Port) (c : Character) (s : State) : State :=
  let s := restartSilence p s
  if c.stop then
    if c.marker then takeMarker p c.data s else takePlain p c.data s
  else takeBad p s

/-- A reception at a port that hears it (R2, R3). -/
def receive (p : Port) (e : Reception) (s : State) : State :=
  match e with
  | .startBit => endSilence p s
  | .taken c => takeCharacter p c s

/-- RECEIVE_CHARACTER (R2): nothing is received by a deaf port (R23); a frame already complete is completed before
the reception (R14, log 8). -/
def execReceiveCharacter (p : Port) (e : Reception) (s : State) : Host.Outcome State Fault Refusal :=
  .next (if isDeaf s p then s else receive p e (completeFrame p s))

/-- SKIP_TIMEOUT (R9). -/
def execSkipTimeout (p : Port) (s : State) : Host.Outcome State Fault Refusal :=
  .next (if (s.rx p).assembler == .skipping && !isDeaf s p && silentOver33 (s.rx p) then
    setAssembler p .idle s
  else s)

/-- The buffer of a frame still being filled: not complete (R13, log 8). -/
def unfinishedFrame (p : Port) (s : State) : Option BufferId :=
  match (s.rx p).assembler with
  | .filling b _ => if frameIsComplete s.pool[b].bytes then none else some b
  | _ => none

/-- GAP_ERROR (R13). -/
def execGapError (p : Port) (s : State) : Host.Outcome State Fault Refusal :=
  .next (match unfinishedFrame p s with
    | some b =>
      if !isDeaf s p && silentOver33 (s.rx p) then dropFilling p b .idle (Ctr.gapErrors p) s else s
    | none => s)

/-- A port has a buffer in Filling. -/
def isFilling (p : Port) (s : State) : Bool :=
  match (s.rx p).assembler with
  | .filling _ _ => true
  | _ => false

/-- A port has a frame being sent. -/
def isSending (p : Port) (s : State) : Bool :=
  match p with
  | .host => s.hostPort.sending.isSome
  | .field => s.fieldPort.sending.isSome

/-- The rate the live Settings table gives a port (R3). -/
def committedRate (p : Port) (s : State) : LineRate :=
  match p with
  | .host => .ofCode (settings s).hostRate
  | .field => .ofCode (settings s).fieldRate

/-- RATE_CHANGE_APPLY (R3): the silence already counted stands. -/
def execRateChangeApply (p : Port) (s : State) : Host.Outcome State Fault Refusal :=
  .next (if isFilling p s || isSending p s then s
    else setRx p { s.rx p with rate := committedRate p s } s)

/-! ### Transmission (R21 to R24) -/

/-- The head of the Host Transmit Queue is being sent (R21); its place in the queue may let a KEY notice in
(R167). -/
def startHostSending (b : BufferId) (rest : List BufferId) (s : State) : State :=
  let line := onLine (bytesAsSent s.pool[b].bytes)
  let s := setBuffer b { s.pool[b] with state := .sending } s
  composeKeyNotices { s with hostPort := { s.hostPort with sending := some ⟨b, line⟩, queue := rest } }

/-- HOST_TRANSMIT_START (R21). -/
def execHostTransmitStart (s : State) : Host.Outcome State Fault Refusal :=
  .next (match s.hostPort.sending, s.hostPort.queue with
    | none, b :: rest => startHostSending b rest s
    | _, _ => s)

/-- The bytes a field item is sent as (R4, R20). -/
def itemBytes (s : State) : FieldItem → List Byte
  | .buffer b => bytesAsSent s.pool[b].bytes
  | .reply d => descriptorBytes d s

/-- A buffer item becomes Sending; a descriptor holds no buffer (R16). -/
def markSending (i : FieldItem) (s : State) : State :=
  match i with
  | .buffer b => setBuffer b { s.pool[b] with state := .sending } s
  | .reply _ => s

/-- The head of the Field Transmit Queue is being sent; direction is asserted with it (R22, R23). -/
def startFieldSending (i : FieldItem) (rest : List FieldItem) (s : State) : State :=
  let line := onLine (itemBytes s i)
  let s := markSending i s
  { s with fieldPort := { s.fieldPort with sending := some ⟨i, line⟩, queue := rest } }

/-- The field line has been quiet long enough and the assembler is not in Filling (R22). -/
def fieldMayStart (s : State) : Bool := silentFor22 s.fieldPort.rx && !isFilling .field s

/-- FIELD_TRANSMIT_START (R22). -/
def execFieldTransmitStart (s : State) : Host.Outcome State Fault Refusal :=
  .next (match s.fieldPort.sending, s.fieldPort.queue with
    | none, i :: rest => if fieldMayStart s then startFieldSending i rest s else s
    | _, _ => s)

/-- What a sent descriptor releases (R24). -/
def finishDescriptor (d : Descriptor) (s : State) : State :=
  match d.source with
  | .nothing => s
  | .half e h => unpinHalf e h s
  | .keyList copy events _ => keyListDelivered copy events s

/-- What a sent field item releases (R24). -/
def finishItem (i : FieldItem) (s : State) : State :=
  match i with
  | .buffer b => releaseBuffer b s
  | .reply d => finishDescriptor d s

/-- The end of a field frame: direction deasserted, the assembler Idle, silence from that stop bit (R23, R24). -/
def finishField (i : FieldItem) (s : State) : State :=
  let s := { s with fieldPort := { s.fieldPort with
    sending := none, rx := { s.fieldPort.rx with assembler := .idle, busy := false, silence := 0 } } }
  finishItem i (bump (Ctr.framesSent .field) s)

/-- The end of a host frame; the Done reply of SUPERVISOR RESET is followed by the in-band reset (R24, R189). -/
def finishHost (b : BufferId) (s : State) : State :=
  let isResetReply := s.mgmt.resetPending == some b
  let s := bump (Ctr.framesSent .host) { s with hostPort.sending := none }
  let s := releaseBuffer b s
  if isResetReply then inBandReset s else s

/-- TRANSMISSION_COMPLETE (R24). -/
def execTransmissionComplete (p : Port) (s : State) : Host.Outcome State Fault Refusal :=
  .next (match p with
    | .host =>
      match s.hostPort.sending with
      | some x => finishHost x.buffer s
      | none => s
    | .field =>
      match s.fieldPort.sending with
      | some x => finishField x.item s
      | none => s)

end Sys2Proof.Machine
end

