-- ==== Sys2Proof/Machine/Management.lean ====
section
/-! DEFINITION. The Management Unit: permissions, each command, staging and commit (R65, R66, R170, R177 to R186). -/

namespace Sys2Proof.Machine

/-! ### Carrying out a command (R177) -/

/-- What a command's own step gives: the state after it, the result, the reply's data. -/
structure Answer where
  state : State
  result : Result
  data : List Byte

/-- A command carried out. -/
def done (s : State) (data : List Byte := []) : Answer := ⟨s, .done, data⟩

/-- A command refused: nothing changes and no data is carried (R177). -/
def refuse (s : State) (r : Result) : Answer := ⟨s, r, []⟩

/-- Byte `i` of the arguments as a number. -/
def Command.arg (c : Command) (i : Nat) : Nat := (byteAt c.args i).toNat

/-- A command with a fixed argument length: any other length receives BadArgument (R177). -/
def withLength (n : Nat) (act : Command → State → Answer) (c : Command) (s : State) : Answer :=
  if c.args.length = n then act c s else refuse s .badArgument

/-- How a command is permitted on the Field Link and while Frozen (R178). -/
inductive Permission where
  | open
  | fieldPermit
  | notFrozen
  | hostNotFrozen
  | hostOnly
  deriving DecidableEq, Repr

/-- The refusal for want of Field Permit (R178). -/
def needPermit (p : Port) (s : State) : Option Result :=
  if p == .field && s.mgmt.permit.isNone then some .noPermit else none

/-- The permission check of R178: the refusal it gives, if any. -/
def Permission.refusal (k : Permission) (p : Port) (s : State) : Option Result :=
  match k with
  | .open => none
  | .fieldPermit => needPermit p s
  | .notFrozen => if s.mgmt.frozen then some .frozen else needPermit p s
  | .hostNotFrozen =>
    if p == .field then some .noPermit else if s.mgmt.frozen then some .frozen else none
  | .hostOnly => if p == .field then some .noPermit else none

/-- The answer to a taken command: the permission check, then the command itself (R177). -/
def answerCommand (k : Permission) (act : Command → State → Answer) (c : Command) (s : State) : Answer :=
  match k.refusal c.port s with
  | some r => refuse s r
  | none => act c s

/-- The answer's reply is written and queued on the port of arrival (R177). -/
def replyAnswer (code : Nat) (c : Command) (a : Answer) : State := replyTo code c a.result a.data a.state

/-- The oldest waiting command of a port is carried out, if its code is the row's (R177, log 6). -/
def serve (code : Nat) (k : Permission) (p : Port) (act : Command → State → Answer) (s : State) : State :=
  match takeCommand code p s with
  | some (c, s') => replyAnswer code c (answerCommand k act c s')
  | none => s

/-! ### STATUS (R181, section 9.8) -/

def Readiness.code : Readiness → Nat
  | .notReady => 0
  | .dwelling => 1
  | .ready => 2

def Channel.code : Channel → Nat
  | .unseeded => 0
  | .valid _ => 1
  | .faulted _ => 2

def LearnState.code : LearnState → Nat
  | .idle => 0
  | .learning _ => 1
  | .abandoned => 2

/-- Part 0 of the Status Record. The seconds in the state are the difference of the supervisor seconds now and those at
which the state was entered (R75); that this and not the elapsed whole seconds is meant is the model's choice
(log 38). -/
def statusPart0 (t : Instant) (s : State) : List Byte :=
  [byte s.live.state.code] ++ be32 (elapsed s.live.enteredAt t.sec) ++
  [byte s.live.budget.length] ++ be16 s.live.failedRestarts.toNat ++
  [byte s.temp.readiness.code, byte (bit s.temp.hot + 2 * bit (coldFallback s)),
   byte (s.temp.board.code + 4 * s.temp.glass.code + 16 * s.temp.air.code)] ++
  beInt16 s.temp.board.reported ++ beInt16 s.temp.glass.reported ++ beInt16 s.temp.air.reported ++
  [byte s.heat.current.onB, byte s.heat.current.onG,
   byte (bit s.heat.cutoffLine + 2 * bit s.heat.cutoffMarks + 4 * bit s.heat.board.blocked
     + 8 * bit s.heat.glass.blocked)]

/-- Whole minutes of Field Permit remaining, rounded up; 0 when not granted (R180). -/
def permitMinutes (t : Instant) (s : State) : Nat :=
  match s.mgmt.permit with
  | some p => (p.remaining t.ms + 59999) / 60000
  | none => 0

def KeyState.isStuck : KeyState → Bool
  | .stuck _ => true
  | _ => false

/-- The number of keys in Stuck (R143). -/
def stuckKeys (s : State) : Nat := (List.finRange 48).countP fun p => s.keypad.keys[p].isStuck

/-- The store state: 0 for Idle, or the identifier of the table being written (R187). -/
def storeCode (s : State) : Nat :=
  match s.store.writing with
  | some j => j.id
  | none => 0

def waitingCount (s : State) : Nat := (List.finRange 8).countP fun i => s.exchanges[i].isWaiting

def lateCount (s : State) : Nat := (List.finRange 8).countP fun i => s.exchanges[i].isLate

/-- Part 1 of the Status Record; before the first keypad sample the set in use reads normal (log 35). -/
def statusPart1 (t : Instant) (s : State) : List Byte :=
  [byte (fanOutput s.fan)] ++ be16 s.fan.speed ++ [byte s.fan.state.code] ++ beInt16 s.fan.reportedClog ++
  [byte (s.fan.learn.code + 4 * bit s.fan.clogWarning),
   byte (bit s.keypad.flooded + 2 * bit (s.keypad.lastSet == some .cold)),
   byte (stuckKeys s), s.flags, byte (bit s.mgmt.frozen), byte (permitMinutes t s),
   s.mgmt.defaultsInUse.setWidth 8, byte (storeCode s), byte (waitingCount s), byte (lateCount s),
   byte (freeCount s), byte s.keyUnit.queue.length, byte s.keyList.events.length]

def doStatus (c : Command) (s : State) : Answer :=
  match c.arg 0 with
  | 0 => done s (statusPart0 c.arrival s)
  | 1 => done s (statusPart1 c.arrival s)
  | _ => refuse s .badArgument

/-- STATUS, code 0x01 (R181). -/
def execStatus (p : Port) (s : State) : Host.Outcome State Fault Refusal :=
  .next (serve 0x01 .open p (withLength 1 doStatus) s)

/-! ### READ ENTRY, WRITE ENTRY, DISCARD (R183, R184) -/

/-- The live or the staging copy of a table. -/
def Staged.copy {α : Type} (t : Staged α) (staging : Bool) : α := if staging then t.staging else t.live

/-- The runtime bytes of a half in a Proxy Setup entry (section 9.8). -/
def ProxyHalf.encode (x : ProxyHalf) : List Byte :=
  [byte (bit x.filled), byte x.payload.length] ++ be32 x.stamp.toNat

/-- The runtime bytes of a live Proxy Setup entry (section 9.8). -/
def ProxyRuntime.encode (r : ProxyRuntime) : List Byte :=
  [byte (match r.active with
    | .half0 => 0
    | .half1 => 1)] ++ r.half0.encode ++ r.half1.encode

/-- An entry in its read layout, or none for a table or an index out of range (R183). -/
def entryBytes (table index : Nat) (staging : Bool) (s : State) : Option (List Byte) :=
  let tb := s.tables
  match table with
  | 1 => if h : index < 32 then
      some ((tb.route.copy staging)[index].encode ++ be16 (if staging then 0 else tb.hits[index].toNat))
    else none
  | 2 => if h : index < 48 then some (tb.keyMap.copy staging)[index].encode else none
  | 3 => if h : index < 8 then some (tb.chord.copy staging)[index].encode else none
  | 4 => if h : index < 17 then some (beInt16 (tb.curveA.copy staging)[index]) else none
  | 5 => if h : index < 17 then some (beInt16 (tb.curveB.copy staging)[index]) else none
  | 6 => if h : index < 61 then some (beInt32 (tb.settings.copy staging)[index]) else none
  | 7 => if h : index < 16 then
      some ((tb.proxy.copy staging)[index].encode ++
        if staging then List.replicate 13 0 else s.proxy[index].encode)
    else none
  | _ => none

def doReadEntry (c : Command) (s : State) : Answer :=
  if c.arg 2 ≤ 1 then
    match entryBytes (c.arg 0) (c.arg 1) (c.arg 2 == 1) s with
    | some bytes => done s bytes
    | none => refuse s .badArgument
  else refuse s .badArgument

/-- READ ENTRY, code 0x02 (R183). -/
def execReadEntry (p : Port) (s : State) : Host.Outcome State Fault Refusal :=
  .next (serve 0x02 .open p (withLength 3 doReadEntry) s)

/-- The write size of a table (section 9.4). -/
def writeSize : Nat → Option Nat
  | 1 => some 10
  | 2 => some 3
  | 3 => some 10
  | 4 => some 2
  | 5 => some 2
  | 6 => some 4
  | 7 => some 4
  | _ => none

/-- A curve point as written: clamped into −500 to +1500 (R104). -/
def clampPoint (x : Int) : Int := clampInt (-500) 1500 x

/-- A setting's value as written: clamped into its range (R184). That a negative value of a coded setting becomes code 0,
where R184 also says "clamped to their last code", is the model's choice (log 41). -/
def clampSetting (i : Fin 61) (x : Int) : Int := clampInt (settingRow i).lo (settingRow i).hi x

/-- The tables with a written staging entry, and whether a field was clamped; none for an index or a code out of
its list (R184). -/
def writeStaging (table index : Nat) (bs : List Byte) (tb : Tables) : Option (Tables × Bool) :=
  match table with
  | 1 => if h : index < 32 then
      (RouteEntry.decode bs).map fun e => ({ tb with route.staging := tb.route.staging.set index e }, false)
    else none
  | 2 => if h : index < 48 then
      some ({ tb with keyMap.staging := tb.keyMap.staging.set index (KeyMapEntry.decode bs) }, false)
    else none
  | 3 => if h : index < 8 then
      (ChordEntry.decode bs).map fun e => ({ tb with chord.staging := tb.chord.staging.set index e.1 }, e.2)
    else none
  | 4 => if h : index < 17 then
      let x := readInt16 bs
      some ({ tb with curveA.staging := tb.curveA.staging.set index (clampPoint x) }, clampPoint x != x)
    else none
  | 5 => if h : index < 17 then
      let x := readInt16 bs
      some ({ tb with curveB.staging := tb.curveB.staging.set index (clampPoint x) }, clampPoint x != x)
    else none
  | 6 => if h : index < 61 then
      let x := readInt32 bs
      let y := clampSetting ⟨index, h⟩ x
      some ({ tb with settings.staging := tb.settings.staging.set index y }, y != x)
    else none
  | 7 => if h : index < 16 then
      some ({ tb with proxy.staging := tb.proxy.staging.set index (ProxySetup.decode bs) }, false)
    else none
  | _ => none

/-- The payload is the table, the index and an entry of the table's write size (R184). -/
def writeLengthOk (c : Command) : Bool :=
  match writeSize (c.arg 0) with
  | some n => c.args.length == n + 2
  | none => false

def doWriteEntry (c : Command) (s : State) : Answer :=
  if writeLengthOk c then
    match writeStaging (c.arg 0) (c.arg 1) (c.args.drop 2) s.tables with
    | some (tb, clamped) => done { s with tables := tb } [byte (bit clamped)]
    | none => refuse s .badArgument
  else refuse s .badArgument

/-- WRITE ENTRY, code 0x03 (R184). -/
def execWriteEntry (p : Port) (s : State) : Host.Outcome State Fault Refusal :=
  .next (serve 0x03 .notFrozen p doWriteEntry s)

/-- Staging set equal to live (R183). -/
def Staged.discarded {α : Type} (t : Staged α) : Staged α := .both t.live

/-- The tables with one staging copy discarded (R183). -/
def discardStaging (table : Nat) (tb : Tables) : Option Tables :=
  match table with
  | 1 => some { tb with route := tb.route.discarded }
  | 2 => some { tb with keyMap := tb.keyMap.discarded }
  | 3 => some { tb with chord := tb.chord.discarded }
  | 4 => some { tb with curveA := tb.curveA.discarded }
  | 5 => some { tb with curveB := tb.curveB.discarded }
  | 6 => some { tb with settings := tb.settings.discarded }
  | 7 => some { tb with proxy := tb.proxy.discarded }
  | _ => none

def doDiscard (c : Command) (s : State) : Answer :=
  match discardStaging (c.arg 0) s.tables with
  | some tb => done { s with tables := tb }
  | none => refuse s .badArgument

/-- DISCARD, code 0x05 (R183). -/
def execDiscard (p : Port) (s : State) : Host.Outcome State Fault Refusal :=
  .next (serve 0x05 .notFrozen p (withLength 1 doDiscard) s)

/-! ### COMMIT (R185, R47, R66, R170) -/

/-- The lowest reason code a valid Route entry fails (R47). -/
def RouteEntry.fault (e : RouteEntry) : Option Nat :=
  if !e.valid then none
  else if e.topicHigh.toNat < e.topicLow.toNat then some 1
  else if e.action == .answer && !(e.source == .field && e.cls == .request && e.station == .own) then some 2
  else if e.feed && e.source == .field then some 3
  else if e.capture && !(e.source == .host && e.cls == .reply && e.action == .forward) then some 4
  else none

/-- The first entry with a fault, as index and reason. -/
def firstFault {n : Nat} (fault : Fin n → Option Nat) : Option (Nat × Nat) :=
  (List.finRange n).findSome? fun i => (fault i).map fun r => (i.val, r)

def routeFault (t : RouteTable) : Option (Nat × Nat) := firstFault fun i : RouteId => t[i].fault

/-- Two members of a valid chord name the same position (R170). -/
def ChordEntry.fault (e : ChordEntry) : Option Nat :=
  if e.valid && !decide e.members.Nodup then some 1 else none

def chordFault (t : ChordTable) : Option (Nat × Nat) := firstFault fun i : ChordId => t[i].fault

/-- A valid entry whose topic a valid entry with a lower index has (R66). -/
def proxyEntryFault (t : ProxySetupTable) (i : ProxyId) : Option Nat :=
  if t[i].valid && (List.finRange 16).any fun j => j < i && t[j].valid && t[j].topic == t[i].topic then some 1
  else none

def proxyFault (t : ProxySetupTable) : Option (Nat × Nat) := firstFault (proxyEntryFault t)

/-- The three checks of the Settings table, as the entry index named and the reason (R185). -/
def settingsFault (t : SettingsTable) : Option (Nat × Nat) :=
  if t.mgmtStation = t.ownStation then some (3, 1)
  else if t.fanFull ≤ t.fanStart then some (43, 2)
  else if t.shutdownTemp ≤ t.resumeTemp then some (29, 3)
  else none

/-- The fault of a staging copy, if its table has checks (R185). -/
def stagingFault (table : Nat) (tb : Tables) : Option (Nat × Nat) :=
  match table with
  | 1 => routeFault tb.route.staging
  | 3 => chordFault tb.chord.staging
  | 6 => settingsFault tb.settings.staging
  | 7 => proxyFault tb.proxy.staging
  | _ => none

/-- Live set equal to staging (R185). -/
def Staged.committed {α : Type} (t : Staged α) : Staged α := .both t.staging

/-- A Route commit: the swap, and every hit counter at 0 (R48). -/
def commitRoute (s : State) : State :=
  { s with tables := { s.tables with route := s.tables.route.committed, hits := Vector.replicate 32 0 } }

def commitKeyMap (s : State) : State := { s with tables.keyMap := s.tables.keyMap.committed }

/-- A Chord commit: every chord returns to Idle (R173). A Holding chord is not counted as abandoned by it, which R173
leaves open beside R174's row: the model's choice (log 40). -/
def commitChord (s : State) : State :=
  { s with tables.chord := s.tables.chord.committed, keyUnit.chords := Vector.replicate 8 .idle }

def commitCurveA (s : State) : State := { s with tables.curveA := s.tables.curveA.committed }

def commitCurveB (s : State) : State := { s with tables.curveB := s.tables.curveB.committed }

/-- A Settings commit: the budget is trimmed (R93) and channels not allowed are blocked (R124). -/
def commitSettings (s : State) : State :=
  blockNotAllowed (trimBudget { s with tables.settings := s.tables.settings.committed })

/-- A Proxy Setup commit: the halves of changed entries are emptied (R67). -/
def commitProxy (s : State) : State :=
  { s with
    proxy := proxyAfterReload s.tables.proxy.live s.tables.proxy.staging s.proxy
    tables.proxy := s.tables.proxy.committed }

/-- The swap of a table whose staging copy passed its checks (R185). -/
def swapTable (table : Nat) (s : State) : State :=
  match table with
  | 1 => commitRoute s
  | 2 => commitKeyMap s
  | 3 => commitChord s
  | 4 => commitCurveA s
  | 5 => commitCurveB s
  | 6 => commitSettings s
  | 7 => commitProxy s
  | _ => s

/-- The image captured of a table's live copy (R187). -/
def captureImage (table : Nat) (tb : Tables) : Option StoreJob :=
  match table with
  | 1 => some (.route tb.route.live)
  | 2 => some (.keyMap tb.keyMap.live)
  | 3 => some (.chord tb.chord.live)
  | 4 => some (.curveA tb.curveA.live)
  | 5 => some (.curveB tb.curveB.live)
  | 6 => some (.settings tb.settings.live)
  | 7 => some (.proxy tb.proxy.live)
  | _ => none

/-- The store goes to Writing the table (R187). -/
def startStoreWrite (table : Nat) (s : State) : State :=
  { s with store.writing := captureImage table s.tables }

/-- COMMIT with store 1 is busy while the store is Writing or an in-band reset is pending (R185). -/
def storeBusy (s : State) : Bool := s.store.writing.isSome || s.mgmt.resetPending.isSome

def doCommit (c : Command) (s : State) : Answer :=
  let table := c.arg 0
  if 1 ≤ table ∧ table ≤ 7 ∧ c.arg 1 ≤ 1 then
    if c.arg 1 = 1 ∧ storeBusy s then refuse s .busy
    else match stagingFault table s.tables with
      | some (index, reason) => ⟨s, .invalid, [byte table, byte index, byte reason]⟩
      | none =>
        let s := swapTable table s
        done (if c.arg 1 = 1 then startStoreWrite table s else s)
  else refuse s .badArgument

/-- COMMIT, code 0x04 (R185). -/
def execCommit (p : Port) (s : State) : Host.Outcome State Fault Refusal :=
  .next (serve 0x04 .notFrozen p (withLength 2 doCommit) s)

/-! ### WRITE PROXY, SET FLAGS (R65, R30) -/

/-- The arguments of WRITE PROXY are in order (R65). -/
def writeProxyArgsOk (c : Command) : Bool :=
  2 ≤ c.args.length && c.arg 0 ≤ 15 && c.arg 1 ≤ 30 && c.args.length == 2 + c.arg 1

def doWriteProxy (c : Command) (s : State) : Answer :=
  if h : c.arg 0 < 16 then
    let e : ProxyId := ⟨c.arg 0, h⟩
    if writeProxyArgsOk c && s.tables.proxy.live[e].valid then
      if inactivePinned e s then ⟨bump Ctr.proxyBusyProxyWrites s, .busy, []⟩
      else done (bump Ctr.proxyProxyWrites (fillInactive e (c.args.drop 2) c.arrival s))
    else refuse s .badArgument
  else refuse s .badArgument

/-- WRITE PROXY, code 0x06 (R65). -/
def execWriteProxy (p : Port) (s : State) : Host.Outcome State Fault Refusal :=
  .next (serve 0x06 .fieldPermit p doWriteProxy s)

def doSetFlags (c : Command) (s : State) : Answer :=
  let s := patternFlags (BitVec.ofNat 16 (readBE c.args)) s
  done s [s.flags]

/-- SET FLAGS, code 0x07 (R30). -/
def execSetFlags (p : Port) (s : State) : Host.Outcome State Fault Refusal :=
  .next (serve 0x07 .fieldPermit p (withLength 2 doSetFlags) s)

/-! ### Host commands (R84, R90, R91, R78) -/

/-- The liveness state code as reply data. -/
def stateCode (s : State) : Byte := byte s.live.state.code

/-- A FEED is early: in RUNNING, fewer than windowMin milliseconds after the last accepted heartbeat (R84). -/
def feedIsEarly (t : Instant) (s : State) : Bool :=
  s.live.state == .running && decide (elapsed s.live.lastHeartbeat t.ms < (settings s).windowMin.toNat)

/-- An early FEED: counted, and a counted restart at the third in a row (R84). -/
def earlyFeed (t : Instant) (s : State) : State :=
  let s := bump Ctr.livenessEarlyFeeds { s with live.earlyStreak := s.live.earlyStreak + 1 }
  if 3 ≤ s.live.earlyStreak then countedRestart .earlyFeed t { s with live.earlyStreak := 0 } else s

def doFeed (c : Command) (s : State) : Answer :=
  if s.live.state.hears then
    if feedIsEarly c.arrival s then
      let s := earlyFeed c.arrival s
      done s [0, stateCode s]
    else
      let s := bump Ctr.livenessFeedsAccepted (acceptHeartbeat c.arrival s)
      done s [1, stateCode s]
  else ⟨bump Ctr.livenessFeedsInWrongState s, .wrongState, []⟩

/-- FEED, code 0x08 (R84). -/
def execFeed (p : Port) (s : State) : Host.Outcome State Fault Refusal :=
  .next (serve 0x08 .hostOnly p (withLength 0 doFeed) s)

def doHostRestart (c : Command) (s : State) : Answer :=
  if c.arg 0 ≤ 1 then
    if hostPowerEnable s then
      let s := uncountedRestart .managementCommand (c.arg 0 == 1) c.arrival s
      done s [stateCode s]
    else refuse s .wrongState
  else refuse s .badArgument

/-- HOST RESTART, code 0x09 (R90). -/
def execHostRestart (p : Port) (s : State) : Host.Outcome State Fault Refusal :=
  .next (serve 0x09 .fieldPermit p (withLength 1 doHostRestart) s)

def doHostPowerOff (c : Command) (s : State) : Answer :=
  let delay := readBE c.args
  if 600 < delay then refuse s .badArgument
  else if hostPowerEnable s then
    let s := startStop delay c.arrival s
    done s [stateCode s]
  else if s.live.state == .coldHold || s.live.state == .cycling then
    let s := enterState .off none c.arrival s
    done s [stateCode s]
  else refuse s .wrongState

/-- HOST POWER OFF, code 0x0A (R91). -/
def execHostPowerOff (p : Port) (s : State) : Host.Outcome State Fault Refusal :=
  .next (serve 0x0A .hostOnly p (withLength 2 doHostPowerOff) s)

def doHostRelease (c : Command) (s : State) : Answer :=
  if s.live.state.isReleasable then
    let s := releaseHost c.arrival s
    done s [stateCode s]
  else refuse s .wrongState

/-- HOST RELEASE, code 0x0B (R78). -/
def execHostRelease (p : Port) (s : State) : Host.Outcome State Fault Refusal :=
  .next (serve 0x0B .fieldPermit p (withLength 0 doHostRelease) s)

/-! ### The Restart Log (R95) -/

def RestartCause.code : RestartCause → Nat
  | .bootTimeout => 0
  | .watchdogExpiry => 1
  | .earlyFeed => 2
  | .operatorChord => 3
  | .managementCommand => 4
  | .overTemperature => 5
  | .externalReset => 6
  | .hostShutdown => 7

def RestartAction.code : RestartAction → Nat
  | .resetPulse => 0
  | .powerCycle => 1
  | .powerOff => 2

/-- A log record's bytes 0 to 14 (section 9.8). -/
def LogRecord.encode (r : LogRecord) : List Byte :=
  be16 r.sequence.toNat ++ [byte r.cause.code, byte r.action.code] ++ be32 r.time.toNat ++ be24 r.uptime ++
  beInt16 r.boardTemp ++ [r.lateReplies, byte (bit r.counted)]

def doReadLog (c : Command) (s : State) : Answer :=
  match s.log.records.reverse[c.arg 0]? with
  | some r => done s (r.encode ++ [byte s.log.records.length])
  | none => refuse s .badArgument

/-- READ LOG, code 0x0C (R95). -/
def execReadLog (p : Port) (s : State) : Host.Outcome State Fault Refusal :=
  .next (serve 0x0C .open p (withLength 1 doReadLog) s)

def doClearLog (_ : Command) (s : State) : Answer :=
  if s.store.writing.isSome then refuse s .busy else done { s with log.records := [] }

/-- CLEAR LOG, code 0x0D (R95, R187). -/
def execClearLog (p : Port) (s : State) : Host.Outcome State Fault Refusal :=
  .next (serve 0x0D .notFrozen p (withLength 0 doClearLog) s)

/-! ### READ COUNTERS (R182) -/

/-- The counters of a group in order. -/
def Counters.group (c : Counters) : Nat → Option (List Counter)
  | 1 => some c.links.toList
  | 2 => some c.routing.toList
  | 3 => some c.exchanges.toList
  | 4 => some c.proxy.toList
  | 5 => some c.keys.toList
  | 6 => some c.thermal.toList
  | 7 => some c.liveness.toList
  | _ => none

/-- Counters `first` to `first + k − 1` set to 0. -/
def clearRange {n : Nat} (v : Vector Counter n) (first k : Nat) : Vector Counter n :=
  Vector.ofFn fun i : Fin n => if first ≤ i.val ∧ i.val < first + k then 0 else v[i]

def Counters.clear (c : Counters) (group first k : Nat) : Counters :=
  match group with
  | 1 => { c with links := clearRange c.links first k }
  | 2 => { c with routing := clearRange c.routing first k }
  | 3 => { c with exchanges := clearRange c.exchanges first k }
  | 4 => { c with proxy := clearRange c.proxy first k }
  | 5 => { c with keys := clearRange c.keys first k }
  | 6 => { c with thermal := clearRange c.thermal first k }
  | 7 => { c with liveness := clearRange c.liveness first k }
  | _ => c

/-- A read with clear 1: the counters returned, and for the Routing group every hit counter, are set to 0 (R182). -/
def clearCounters (group first k : Nat) (s : State) : State :=
  let s := { s with counters := s.counters.clear group first k }
  if group = 2 then { s with tables.hits := Vector.replicate 32 0 } else s

def doReadCounters (c : Command) (s : State) : Answer :=
  match s.counters.group (c.arg 0) with
  | some cs =>
    let first := c.arg 2
    if c.arg 1 ≤ 1 ∧ first < cs.length then
      let k := min 14 (cs.length - first)
      let data := [byte cs.length, byte first, byte k] ++
        ((cs.drop first).take k).flatMap fun x => be16 x.toNat
      done (if c.arg 1 = 1 then clearCounters (c.arg 0) first k s else s) data
    else refuse s .badArgument
  | none => refuse s .badArgument

/-- READ COUNTERS needs Field Permit on the Field Link unless its clear byte is 0 (R178). -/
def readCountersPermission (p : Port) (s : State) : Permission :=
  match waitingCommand p s with
  | some b => if (commandIn b s).args[1]? = some 0 then .open else .fieldPermit
  | none => .fieldPermit

/-- READ COUNTERS, code 0x0E (R182). -/
def execReadCounters (p : Port) (s : State) : Host.Outcome State Fault Refusal :=
  .next (serve 0x0E (readCountersPermission p s) p (withLength 3 doReadCounters) s)

/-! ### LEARN AIRFLOW, FREEZE (R137, R179) -/

def doLearnAirflow (c : Command) (s : State) : Answer :=
  if s.fan.learn.isLearning then refuse s .busy
  else if (boardMinusAir s).isSome then done (startLearn c.arrival s)
  else refuse s .wrongState

/-- LEARN AIRFLOW, code 0x0F (R137). -/
def execLearnAirflow (p : Port) (s : State) : Host.Outcome State Fault Refusal :=
  .next (serve 0x0F .notFrozen p (withLength 0 doLearnAirflow) s)

def doFreeze (_ : Command) (s : State) : Answer := done { s with mgmt.frozen := true }

/-- FREEZE, code 0x10 (R179). -/
def execFreeze (p : Port) (s : State) : Host.Outcome State Fault Refusal :=
  .next (serve 0x10 .hostNotFrozen p (withLength 0 doFreeze) s)

/-! ### SUPERVISOR RESET (R189) -/

/-- SUPERVISOR RESET is carried out: the Done reply is queued and the reset is pending; if the queue refuses the
reply, the reset takes effect at the refusal (R189, R18). -/
def requestReset (c : Command) (s : State) : State :=
  let room := hostQueueRoom s
  let s := replyTo 0x11 c .done [] s
  if room then { s with mgmt.resetPending := some c.buffer } else inBandReset s

/-- SUPERVISOR RESET as a command taken from the Host Link (R177, R189). -/
def doSupervisorReset (c : Command) (s : State) : State :=
  if c.port == .field then replyTo 0x11 c .noPermit [] s
  else if c.args.length ≠ 0 then replyTo 0x11 c .badArgument [] s
  else if storeBusy s then replyTo 0x11 c .busy [] s
  else requestReset c s

/-- SUPERVISOR RESET, code 0x11 (R189). -/
def execSupervisorReset (p : Port) (s : State) : Host.Outcome State Fault Refusal :=
  .next (match takeCommand 0x11 p s with
    | some (c, s') => doSupervisorReset c s'
    | none => s)

/-! ### Field Permit (R180) -/

/-- PERMIT_EXPIRY (R180, log 2). -/
def execPermitExpiry (s : State) : Host.Outcome State Fault Refusal :=
  .next (if timerDue s.mgmt.permit s.clock.ms then { s with mgmt.permit := none } else s)

end Sys2Proof.Machine
end

