-- ==== Sys2Proof/Machine/Clock.lean ====
section
/-! DEFINITION. What the clock does when no command waits: a tick of 1/115200 second, in which the time base and the
two silences go on (R1, R3, log 1). -/

namespace Sys2Proof.Machine

/-- One more tick of silence at a port, in twelfths of a bit time at the current rate; none while a character comes
in (R3, log 3). -/
def Receiver.tick (r : Receiver) : Receiver :=
  if r.busy then r else { r with silence := r.silence + r.rate.perTick }

/-- The Field Port's silence is not counted while the port itself sends (R22, R23). -/
def FieldPort.tick (f : FieldPort) : FieldPort :=
  if f.sending.isSome then f else { f with rx := f.rx.tick }

/-- Work that R14 takes at its arrival is not yet done: a port's frame has its last check byte and is not completed, or
the Management Unit has a command to carry out (R14, log 6). -/
def arrivalWorkWaits (s : State) : Bool :=
  (completedFrame .host s).isSome || (completedFrame .field s).isSome || !s.mgmt.waiting.isEmpty

/-- One tick passes and no command comes (R1, log 1); no time passes while work waits that belongs to its frame's
arrival (R14, log 6). -/
def tick (s : State) : State :=
  if arrivalWorkWaits s then s
  else { s with
    clock := s.clock.tick
    hostPort := { s.hostPort with rx := s.hostPort.rx.tick }
    fieldPort := s.fieldPort.tick }

end Sys2Proof.Machine
end

