-- ==== Sys2Proof/Machine/Dispatch.lean ====
section
/-! DEFINITION. The dispatch: one arm per constructor of Instr, in the table's order. -/

namespace Sys2Proof.Machine

def exec (i : Instr) (s : State) : Host.Outcome State Fault Refusal :=
  match i with
  | .powerOnReset => Sys2Proof.Machine.execPowerOnReset s
  | .resetLineReset => Sys2Proof.Machine.execResetLineReset s
  | .receiveCharacter port event => Sys2Proof.Machine.execReceiveCharacter port event s
  | .skipTimeout port => Sys2Proof.Machine.execSkipTimeout port s
  | .gapError port => Sys2Proof.Machine.execGapError port s
  | .frameComplete port => Sys2Proof.Machine.execFrameComplete port s
  | .hostTransmitStart => Sys2Proof.Machine.execHostTransmitStart s
  | .fieldTransmitStart => Sys2Proof.Machine.execFieldTransmitStart s
  | .transmissionComplete port => Sys2Proof.Machine.execTransmissionComplete port s
  | .rateChangeApply port => Sys2Proof.Machine.execRateChangeApply port s
  | .exchangeDeadlineExpiry entry => Sys2Proof.Machine.execExchangeDeadlineExpiry entry s
  | .lateHoldExpiry entry => Sys2Proof.Machine.execLateHoldExpiry entry s
  | .powerSettleExpiry => Sys2Proof.Machine.execPowerSettleExpiry s
  | .bootGraceExpiry => Sys2Proof.Machine.execBootGraceExpiry s
  | .windowMaxExpiry => Sys2Proof.Machine.execWindowMaxExpiry s
  | .warnGraceExpiry => Sys2Proof.Machine.execWarnGraceExpiry s
  | .resetPulseExpiry => Sys2Proof.Machine.execResetPulseExpiry s
  | .cycleOffExpiry => Sys2Proof.Machine.execCycleOffExpiry s
  | .stopDelayExpiry => Sys2Proof.Machine.execStopDelayExpiry s
  | .temperatureSample board glass air => Sys2Proof.Machine.execTemperatureSample board glass air s
  | .dwellExpiry => Sys2Proof.Machine.execDwellExpiry s
  | .demandEvent => Sys2Proof.Machine.execDemandEvent s
  | .heatBoundary => Sys2Proof.Machine.execHeatBoundary s
  | .tachPulse => Sys2Proof.Machine.execTachPulse s
  | .cutoffActive => Sys2Proof.Machine.execCutoffActive s
  | .cutoffRelease => Sys2Proof.Machine.execCutoffRelease s
  | .learnComplete => Sys2Proof.Machine.execLearnComplete s
  | .keypadSample pressed => Sys2Proof.Machine.execKeypadSample pressed s
  | .repeatExpiry key => Sys2Proof.Machine.execRepeatExpiry key s
  | .chordFire chord => Sys2Proof.Machine.execChordFire chord s
  | .permitExpiry => Sys2Proof.Machine.execPermitExpiry s
  | .storeWriteComplete => Sys2Proof.Machine.execStoreWriteComplete s
  | .status port => Sys2Proof.Machine.execStatus port s
  | .readEntry port => Sys2Proof.Machine.execReadEntry port s
  | .writeEntry port => Sys2Proof.Machine.execWriteEntry port s
  | .commit port => Sys2Proof.Machine.execCommit port s
  | .discard port => Sys2Proof.Machine.execDiscard port s
  | .writeProxy port => Sys2Proof.Machine.execWriteProxy port s
  | .setFlags port => Sys2Proof.Machine.execSetFlags port s
  | .feed port => Sys2Proof.Machine.execFeed port s
  | .hostRestart port => Sys2Proof.Machine.execHostRestart port s
  | .hostPowerOff port => Sys2Proof.Machine.execHostPowerOff port s
  | .hostRelease port => Sys2Proof.Machine.execHostRelease port s
  | .readLog port => Sys2Proof.Machine.execReadLog port s
  | .clearLog port => Sys2Proof.Machine.execClearLog port s
  | .readCounters port => Sys2Proof.Machine.execReadCounters port s
  | .learnAirflow port => Sys2Proof.Machine.execLearnAirflow port s
  | .freeze port => Sys2Proof.Machine.execFreeze port s
  | .supervisorReset port => Sys2Proof.Machine.execSupervisorReset port s
  | .heatStep => Sys2Proof.Machine.execHeatStep s

end Sys2Proof.Machine
end

