-- ==== Sys2Proof/Safety.lean ====
section
/-! DEFINITION. What claims are stated in: the invariants of a safe run, and names for the states that a rule passes
through. -/

namespace Sys2Proof.Machine

/-! ### Invariants -/

/-- Exclusion and gaps of an allocation: no channel reaches into the last g steps, and two heating channels leave
two gaps (R125, R126). -/
abbrev Allocation.Spaced (a : Allocation) : Prop :=
  a.onB ≤ 100 - a.g ∧ a.onG ≤ 100 - a.g ∧ (a.onB = 0 ∨ a.onG = 0 ∨ a.onB + a.onG + 2 * a.g ≤ 100)

/-- A heater channel is off and has no steps left in the period (R124, R128). -/
abbrev HeaterIdle (x : HeaterChannel) (steps : Nat) : Prop := x.output = false ∧ steps = 0

/-- The heater outputs are never on together (R126), are off under the CutOff marks, which stand while the line is
active (R128), and are off for a channel that is Blocked, as every channel not allowed is (R123, R124). -/
abbrev HeatersSafe (s : State) : Prop :=
  (s.heat.board.output && s.heat.glass.output) = false ∧
  (s.heat.cutoffLine = true → s.heat.cutoffMarks = true) ∧
  (s.heat.cutoffMarks = true →
    HeaterIdle s.heat.board s.heat.current.onB ∧ HeaterIdle s.heat.glass s.heat.current.onG) ∧
  (s.heat.board.blocked = true → HeaterIdle s.heat.board s.heat.current.onB) ∧
  (s.heat.glass.blocked = true → HeaterIdle s.heat.glass s.heat.current.onG) ∧
  (heaterAllowed s .board = false → s.heat.board.blocked = true) ∧
  (heaterAllowed s .glass = false → s.heat.glass.blocked = true) ∧
  s.heat.current.Spaced ∧ s.heat.pending.Spaced

/-- No two Waiting or Late entries hold the same tag (R50). -/
abbrev ExchangeTagsDistinct (s : State) : Prop :=
  ∀ i j : ExchangeId, i ≠ j → s.exchanges[i].tag? = none ∨ s.exchanges[i].tag? ≠ s.exchanges[j].tag?

/-- The Key Event Queue is empty, with no loss pending, while the host is not up, and the Field Key List is empty
while it is (R96, R168, R73). -/
abbrev KeysFollowHost (s : State) : Prop :=
  (hostUp s = false → s.keyUnit.queue = [] ∧ s.keyUnit.lossPending = false) ∧
  (hostUp s = true → s.keyList.events = [])

/-- A setting lies in its range (R186). -/
abbrev SettingsInRange (t : SettingsTable) : Prop :=
  ∀ i : Fin 61, (settingRow i).lo ≤ t[i] ∧ t[i] ≤ (settingRow i).hi

/-- A Settings image in the store, or being written, holds settings in their ranges. -/
abbrev StoredSettingsInRange (st : Store) : Prop :=
  (match st.settings with
    | some image => SettingsInRange image.contents
    | none => True) ∧
  (match st.writing with
    | some (.settings t) => SettingsInRange t
    | _ => True)

/-- Every copy of the Settings table holds its settings in their ranges (R184, R186, R188). -/
abbrev AllSettingsInRange (s : State) : Prop :=
  SettingsInRange s.tables.settings.live ∧ SettingsInRange s.tables.settings.staging ∧
  StoredSettingsInRange s.store

/-- The pin counts of a proxy entry stay within R61's range. -/
abbrev PinsBounded (r : ProxyRuntime) : Prop := r.half0.pins ≤ 16 ∧ r.half1.pins ≤ 16

/-- The queues and lists hold no more than the spec gives them places: Host and Field Transmit Queue 16 (R18, R19),
Key Event Queue 16 (R166), Field Key List 8 (R69), Restart Log 16 (R94), Budget List 8 (R86), pins 16 (R61),
integrators 6400 (R121). -/
abbrev WithinCapacity (s : State) : Prop :=
  s.hostPort.queue.length ≤ 16 ∧ s.fieldPort.queue.length ≤ 16 ∧ s.keyUnit.queue.length ≤ 16 ∧
  s.keyList.events.length ≤ 8 ∧ s.log.records.length ≤ 16 ∧ s.live.budget.length ≤ 8 ∧
  (∀ e : ProxyId, PinsBounded s.proxy[e]) ∧
  (0 ≤ s.heat.board.integrator ∧ s.heat.board.integrator ≤ 6400) ∧
  (0 ≤ s.heat.glass.integrator ∧ s.heat.glass.integrator ≤ 6400)

/-- Liveness runs the timer that its state has in the table of section 4.1, and no other (R75). -/
abbrev TimerMatchesState (s : State) : Prop :=
  s.live.timer.isSome = (match s.live.state with
    | .off | .coldHold | .hotHold | .latched => false
    | _ => true)

/-! ### The Frame Pool -/

/-- The buffer of the frame that a port's assembler fills. -/
def Receiver.filling (r : Receiver) : List BufferId :=
  match r.assembler with
  | .filling b _ => [b]
  | _ => []

/-- The buffer of a field item, if it holds one (R19). -/
def FieldItem.held : FieldItem → Option BufferId
  | .buffer b => some b
  | .reply _ => none

/-- Every place that holds a buffer, with the buffer and the state that R15 gives a buffer held there. -/
def heldBuffers (s : State) : List (BufferId × BufferState) :=
  s.hostPort.rx.filling.map (·, .filling) ++ s.fieldPort.rx.filling.map (·, .filling) ++
  s.mgmt.waiting.map (·, .working) ++
  s.hostPort.queue.map (·, .queued) ++ (s.fieldPort.queue.filterMap FieldItem.held).map (·, .queued) ++
  s.hostPort.sending.toList.map (fun x => (x.buffer, .sending)) ++
  (s.fieldPort.sending.toList.filterMap fun x => x.item.held).map (·, .sending)

/-- No buffer is held in two places, twice in a transmit queue above all; a held buffer is in the state of its place,
and every other buffer is Free (R15, R16, R18, R19). A sending Field Port fills no frame (R22, R23). -/
abbrev PoolAccounted (s : State) : Prop :=
  ((heldBuffers s).map Prod.fst).Nodup ∧ (∀ x ∈ heldBuffers s, s.pool[x.1].state = x.2) ∧
  (∀ b : BufferId, b ∉ (heldBuffers s).map Prod.fst → s.pool[b].state = .free) ∧
  (s.fieldPort.sending.isSome = true → s.fieldPort.rx.filling = [])

/-! ### What the Liveness Controller hands to other blocks -/

/-- The entries' order of expiry as liveness leaves HostUp: the longer open first, and of equals the lower index
(R57, log 33). -/
def ExpiresBefore (s : State) (i j : ExchangeId) : Prop :=
  ∀ r q : Request, s.exchanges[i] = .waiting r → s.exchanges[j] = .waiting q →
    (s.clock.ms - q.openTime).toNat < (s.clock.ms - r.openTime).toNat ∨
    ((s.clock.ms - r.openTime).toNat = (s.clock.ms - q.openTime).toNat ∧ i < j)

/-- The expiry reply, with H set, for an entry that is Waiting in `s` (R54, R57). -/
def offerExpiryReply (s u : State) (i : ExchangeId) : State :=
  match s.exchanges[i] with
  | .waiting r => composeReply .expiry r.topic r.tag true s.clock u
  | _ => u

/-- The retries that a Waiting entry has absorbed (R52). -/
def Exchange.retryCount : Exchange → Nat
  | .waiting r => r.retries.toNat
  | _ => 0

/-- Leaving HostUp: every Waiting entry becomes Late, its request kept and its lateHold started at that moment, and
one expiry reply with H set is offered for each in the order of R57; Late and Free entries stand; the Key Event Queue
is flushed and counted and no loss is pending (R57, R96, R168). -/
def LeavesHostUp (s t : State) : Prop :=
  (∀ i : ExchangeId, t.exchanges[i] = (match s.exchanges[i] with
    | .waiting r => .late r ⟨s.clock.ms, (settings s).lateHold.toNat⟩
    | x => x)) ∧
  (∃ order : List ExchangeId, (∀ i : ExchangeId, i ∈ order ↔ s.exchanges[i].isWaiting = true) ∧
    order.Pairwise (ExpiresBefore s) ∧
    (let u := order.foldl (offerExpiryReply s) s
     t.fieldPort = u.fieldPort ∧ t.proxy = u.proxy ∧
     t.counters.links = u.counters.links ∧ t.counters.proxy = u.counters.proxy) ∧
    t.counters.exchanges = (bumpBy Ctr.exchangesExpiries order.length
      (bumpBy Ctr.exchangesExpiriesOnLeavingHostUp order.length
        (bumpBy Ctr.exchangesRetriesBeforeExpiry (order.map fun i => s.exchanges[i].retryCount).sum
          s))).counters.exchanges) ∧
  t.keyUnit = { s.keyUnit with queue := [], lossPending := false } ∧
  t.counters.keys = (bumpBy Ctr.keysEventsFlushed s.keyUnit.queue.length s).counters.keys ∧
  t.hostPort = s.hostPort ∧ t.pool = s.pool ∧ t.keyList = s.keyList ∧ t.noticeNo = s.noticeNo

/-- A change of liveness from `s` to `t` as the Exchange Tracker, the Proxy Store and the Key Event Unit see it: what
leaving HostUp does, or nothing (R96). -/
def HostUpHandOver (s t : State) : Prop :=
  if hostUp s = true ∧ hostUp t = false then LeavesHostUp s t
  else t.exchanges = s.exchanges ∧ t.keyUnit = s.keyUnit ∧ t.fieldPort = s.fieldPort ∧ t.proxy = s.proxy ∧
    t.counters.exchanges = s.counters.exchanges ∧ t.counters.proxy = s.counters.proxy ∧
    t.counters.keys = s.counters.keys

/-- Every channel that is not allowed in `t` and was not Blocked in `s` is blocked: its output off, its current
on-steps 0, the block counted, and nothing else of the heaters changed (R124). -/
def BlocksNotAllowed (s t : State) : Prop :=
  let newly : Heater → Bool := fun c => !heaterAllowed t c && !(s.heat.channel c).blocked
  t.heat = { s.heat with
    board := if newly .board then { s.heat.board with blocked := true, output := false } else s.heat.board
    glass := if newly .glass then { s.heat.glass with blocked := true, output := false } else s.heat.glass
    current := ⟨if newly .board then 0 else s.heat.current.onB, if newly .glass then 0 else s.heat.current.onG,
      s.heat.current.g⟩ } ∧
  t.counters.thermal =
    (let u := if newly .board then bump Ctr.thermalBoardBlocks s else s
     if newly .glass then bump Ctr.thermalGlassBlocks u else u).counters.thermal

/-- A change of liveness from `s` to `t` as the heaters see it: what host power coming on blocks, or nothing
(R76, R124). -/
def PowerHandOver (s t : State) : Prop :=
  if hostPowerEnable s = false ∧ hostPowerEnable t = true then BlocksNotAllowed s t
  else t.heat = s.heat ∧ t.counters.thermal = s.counters.thermal

/-- Bit `i` of a byte is the fact that stands in place `i` of the list, and 0 beyond it (section 9.8). -/
abbrev BitsOf (b : Byte) (facts : List Bool) : Prop :=
  ∀ i : Nat, i < 8 → b.getLsbD i = facts.getD i false

/-! ### States that rules pass through -/

/-- A frame whose check agrees, at its arrival: the assembler Idle, the buffer Working and stamped, the frame
counted (R14). -/
def arrived (p : Port) (b : BufferId) (s : State) : State :=
  bump (Ctr.validFrames p)
    (setBuffer b { s.pool[b] with state := .working, arrival := s.clock } (setAssembler p .idle s))

/-- A completed frame stands in a port's assembler: its buffer and station class (R10). -/
abbrev FrameStands (p : Port) (b : BufferId) (a : Address) (s : State) : Prop :=
  (s.rx p).assembler = .filling b a ∧ frameIsComplete s.pool[b].bytes = true

/-- The frame is neither answered from the Field Key List nor a retry nor a host Reply: it goes to lookup without an
exchange (R34 to R36). -/
abbrev GoesToLookup (f : RoutedFrame) (s : State) : Prop :=
  f.isHostReply = false ∧
  (f.isOwnRequest = true → isKeyListRequest f s = false ∧ waitingWith f.tag s = none)

/-- The winner of a frame's lookup has taken its hit and applied its pattern (R38, first and second). -/
def won (i : RouteId) (s : State) : State := patternFlags s.tables.route.live[i].pattern (hit i s)

/-- What a load makes of one table: an image that passes its check is live and staging and the table's mark is clear;
otherwise both are the factory defaults and the mark is set (R188). -/
abbrev LoadsAs {α : Type} (bytes : α → List Byte) (image : Option (StoredImage α)) (factory : α) (table : Staged α)
    (mark : Bool) : Prop :=
  (∀ x : StoredImage α, image = some x → x.check = crc16 (bytes x.contents) →
    table = ⟨x.contents, x.contents⟩ ∧ mark = false) ∧
  ((∀ x : StoredImage α, image = some x → x.check ≠ crc16 (bytes x.contents)) →
    table = ⟨factory, factory⟩ ∧ mark = true)

/-- A field item is a descriptor that references a half, for which the half holds a pin (R20, R63). -/
def pinsHalf (e : ProxyId) (h : HalfId) : FieldItem → Bool
  | .reply d => d.source == .half e h
  | .buffer _ => false

/-- The key-list copies that field items carry, each with its number and the overflow mark in it (R20, R70). -/
def keyListCopies (s : State) : List (Nat × Bool) :=
  (fieldItems s).filterMap fun
    | .reply ⟨_, _, _, _, .keyList copy _ overflow⟩ => some (copy, overflow)
    | _ => none

/-- The entries of a table by its identifier; none for an identifier outside 1 to 7 (section 9.4). -/
def entryCount (table : Nat) : Nat := [0, 32, 48, 8, 17, 17, 61, 16].getD table 0

/-- A command that the Management Unit takes up from a port, and the state with it taken (R177). -/
abbrev Takes (code : Nat) (p : Port) (c : Command) (s s' : State) : Prop := takeCommand code p s = some (c, s')

/-- The Field Link column of R178 lets the command in: from the Host Link, or with Field Permit. -/
abbrev Permitted (p : Port) (s : State) : Prop := p = .host ∨ s.mgmt.permit.isSome = true

end Sys2Proof.Machine
end

