-- ==== Sys2Proof/Certificates/Slice0/Obligations.lean ====
section
/-! DEFINITION. The statements for the provers, in the order of the chapters of the spec. -/

section

open Sys2Proof Sys2Proof.Machine

/-! ### The queue of commands -/

/-- A step carries out the command at the front of the queue on the state with the queue's rest. -/
def Obligations.StepRunsFrontCommand : Prop :=
  ∀ (s : State) (c : Instr) (rest : List Instr),
    step { s with pending := c :: rest } = exec c { s with pending := rest }

/-- The model's choice (logs 1, 3 and 6): with no command waiting a step is one tick of 1/115200 second, in which
only the time base and the silences move, a silence by the twelfths of a bit time that the line's rate gives a tick;
while work that belongs to a frame's arrival waits, the step changes nothing. Ticks by themselves take the time base
forward by a millisecond for every 1/1000 second, 5 for every 576 ticks, and no command moves it but the two resets.
-/
def Obligations.IdleStepIsOneTick : Prop :=
  (∀ s : State, s.pending = [] → arrivalWorkWaits s = true → step s = .next s) ∧
  (∀ s : State, s.pending = [] → arrivalWorkWaits s = false → ∃ t : State, step s = .next t ∧
    t.clock = (if 115199 ≤ s.clock.sub then ⟨s.clock.ms + 1, s.clock.sec + 1, 0⟩
      else ⟨s.clock.ms + BitVec.ofNat 32 ((s.clock.sub + 1) * 5 / 576 - s.clock.sub * 5 / 576), s.clock.sec,
        s.clock.sub + 1⟩) ∧
    t.hostPort.rx.silence = s.hostPort.rx.silence +
      (if s.hostPort.rx.busy = true then 0 else s.hostPort.rx.rate.bps / 9600) ∧
    t.fieldPort.rx.silence = s.fieldPort.rx.silence +
      (if s.fieldPort.sending.isSome = true ∨ s.fieldPort.rx.busy = true then 0
        else s.fieldPort.rx.rate.bps / 9600) ∧
    t = { s with
      clock := t.clock
      hostPort := { s.hostPort with rx := { s.hostPort.rx with silence := t.hostPort.rx.silence } }
      fieldPort := { s.fieldPort with rx := { s.fieldPort.rx with silence := t.fieldPort.rx.silence } } }) ∧
  (∀ (s : State) (n : Nat), arrivalWorkWaits s = false → s.clock.sub < 115200 →
    (tick^[n] s).clock.sub < 115200 ∧
    (tick^[n] s).clock.ms =
      s.clock.ms + BitVec.ofNat 32 ((s.clock.sub + n) * 5 / 576 - s.clock.sub * 5 / 576)) ∧
  (∀ (c : Instr) (s t : State), exec c s = .next t →
    t.clock = s.clock ∨ (t.clock = {} ∧ (c = .powerOnReset ∨ c = .resetLineReset)))

/-! ### Resets -/

/-- R98: liveness after a power-on reset, the autoStart step taken. -/
def Obligations.PowerOnResetLiveness : Prop :=
  ∀ s : State, ∃ t : State, exec .powerOnReset s = .next t ∧
    t.live.state = (if (settings t).autoStart = 0 then .off else .coldHold) ∧
    hostPowerEnable t = false ∧ hostReset t = false ∧ t.live.timer = none ∧
    t.live.budget = [] ∧ t.live.failedRestarts = 0 ∧ t.live.lateReplies = 0 ∧ t.live.earlyStreak = 0 ∧
    t.log.records = [] ∧ t.log.nextSeq = 0 ∧ t.counters.liveness = Vector.replicate 11 0

/-- R99: a reset-line reset is a power-on reset but for the Restart Log, which is kept and takes an ExternalReset
record if host power was on. -/
def Obligations.ResetLineKeepsRestartLog : Prop :=
  ∀ s : State, ∃ u t : State,
    exec .powerOnReset s = .next u ∧ exec .resetLineReset s = .next t ∧
    t = { u with log :=
      if hostPowerEnable s then
        s.log.append ⟨s.log.nextSeq, .externalReset, .powerOff, 0, uptimeAt s.live s.clock, -32768,
          s.live.lateReplies, false⟩
      else s.log }

/-- What power-on and reset-line reset leave in the ports, the pool, the tracker, the stores, the keypad and the
Management Unit (R26, R49, R60, R61, R69, R158, R175, R190). What power-on and reset-line reset leave in the
Temperature Monitor and the Heat Drive (R117, R141): the cutoff line keeps its level and the CutOff marks follow it.
R188: what a load makes of each of the seven images, and that a write the reset cuts leaves its image bad, the others
standing.
-/
def Obligations.ResetClearsBlocks : Prop :=
  (∀ (s : State) (r : Instr), r = .powerOnReset ∨ r = .resetLineReset → ∃ t : State, exec r s = .next t ∧
     (t.hostPort.rx.assembler = .idle ∧ t.hostPort.sending = none ∧ t.hostPort.queue = [] ∧
       t.hostPort.rx.rate = LineRate.ofCode (settings t).hostRate) ∧
     t.fieldPort = { rx := { assembler := .idle, silence := 0, rate := LineRate.ofCode (settings t).fieldRate } } ∧
     (∀ b : BufferId, t.pool[b].state = .free) ∧ t.noticeNo = 0 ∧ t.counters = {} ∧ t.clock.ms = 0 ∧
     (∀ i : ExchangeId, t.exchanges[i] = .free) ∧ (∀ e : ProxyId, t.proxy[e] = {}) ∧
     (t.keyList.events = [] ∧ t.keyList.overflow = false) ∧
     t.keypad = { interval := (settings t).scanInterval.toNat } ∧ t.keyUnit = {} ∧
     (t.mgmt.frozen = false ∧ t.mgmt.permit = none ∧ t.mgmt.resetPending = none) ∧
     t.store = cutWrite s.store ∧ t.tables = loadTables t.store ∧ t.mgmt.defaultsInUse = loadMarks t.store ∧
     t.flags = BitVec.ofInt 8 (settings t).initialFlags) ∧
  (∀ (s : State) (r : Instr), r = .powerOnReset ∨ r = .resetLineReset → ∃ t : State, exec r s = .next t ∧
     t.temp = { fallbackStart := if (settings t).autoStart = 0 then none else some 0 } ∧
     t.heat = { current := ⟨0, 0, (settings t).heatGap.toNat⟩, pending := ⟨0, 0, (settings t).heatGap.toNat⟩,
                cutoffLine := s.heat.cutoffLine, cutoffMarks := s.heat.cutoffLine } ∧
     t.fan = {} ∧ fanOutput t.fan = 0) ∧
  (∀ st : Store,
     LoadsAs routeImage st.route factoryRoutes (loadTables st).route ((loadMarks st).getLsbD 0) ∧
     LoadsAs keyMapImage st.keyMap factoryKeyMap (loadTables st).keyMap ((loadMarks st).getLsbD 1) ∧
     LoadsAs chordImage st.chord factoryChords (loadTables st).chord ((loadMarks st).getLsbD 2) ∧
     LoadsAs curveImage st.curveA factoryCurveA (loadTables st).curveA ((loadMarks st).getLsbD 3) ∧
     LoadsAs curveImage st.curveB factoryCurveB (loadTables st).curveB ((loadMarks st).getLsbD 4) ∧
     LoadsAs settingsImage st.settings factorySettings (loadTables st).settings ((loadMarks st).getLsbD 5) ∧
     LoadsAs proxyImage st.proxy factoryProxy (loadTables st).proxy ((loadMarks st).getLsbD 6) ∧
     (loadTables st).hits = Vector.replicate 32 0 ∧
     (let cut : Nat → Bool := fun id => st.writing.map StoreJob.id == some id
      cutWrite st = { st with
        writing := none
        route := if cut 1 then none else st.route
        keyMap := if cut 2 then none else st.keyMap
        chord := if cut 3 then none else st.chord
        curveA := if cut 4 then none else st.curveA
        curveB := if cut 5 then none else st.curveB
        settings := if cut 6 then none else st.settings
        proxy := if cut 7 then none else st.proxy }))

/-- The in-band reset at the end of its Done reply: liveness, the Restart Log and the monitors are kept (R100,
R118), Frozen and Field Permit are kept (R189), and the ports, the pool, the exchanges, the keys and the tables
start again (R27, R28, R60, R159, R176, R188). R68: every pin that a discarded descriptor held is released, and an
entry whose reloaded setup differs is emptied. R72: the events of a discarded key-list copy return to pending, and an
overflow mark that it carried is set again. That the Host Port's silence starts at 0, on a line where no character has
begun, is the model's choice (logs 3 and 36). R124: a channel that the reloaded Settings do not allow is blocked. -/
def Obligations.InBandResetAtReplyEnd : Prop :=
  ∀ (s : State) (x : HostTransmission), s.hostPort.sending = some x → s.mgmt.resetPending = some x.buffer →
    ∃ t : State, exec (.transmissionComplete .host) s = .next t ∧
      (t.live = s.live ∧ t.log = s.log ∧ t.counters.liveness = s.counters.liveness) ∧
      (t.temp = s.temp ∧ t.fan = s.fan ∧ t.heat.pending = s.heat.pending ∧ t.clock = s.clock) ∧
      BlocksNotAllowed s t ∧
      (t.mgmt.frozen = s.mgmt.frozen ∧ t.mgmt.permit = s.mgmt.permit ∧ t.mgmt.resetPending = none) ∧
      (∀ b : BufferId, t.pool[b].state = .free) ∧
      t.hostPort = { rx := { rate := LineRate.ofCode (settings t).hostRate } } ∧
      t.fieldPort = { rx := { rate := LineRate.ofCode (settings t).fieldRate } } ∧
      (∀ i : ExchangeId, t.exchanges[i] = .free) ∧
      (∀ k : KeyPos, t.keypad.keys[k] = .up) ∧ t.keypad.flooded = false ∧ t.keyUnit = {} ∧
      t.store = s.store ∧ t.tables = loadTables s.store ∧ t.mgmt.defaultsInUse = loadMarks s.store ∧
      t.flags = BitVec.ofInt 8 (settings t).initialFlags ∧
      (∀ (e : ProxyId) (h : HalfId),
        let kept := { s.proxy[e].get h with pins := (s.proxy[e].get h).pins - (fieldItems s).countP (pinsHalf e h) }
        let sameSetup := s.tables.proxy.live[e].valid = t.tables.proxy.live[e].valid ∧
          s.tables.proxy.live[e].topic = t.tables.proxy.live[e].topic
        t.proxy[e].active = s.proxy[e].active ∧
        (sameSetup → t.proxy[e].get h = kept) ∧
        (¬sameSetup → kept.pins = 0 → t.proxy[e].get h = {}) ∧
        (¬sameSetup → 0 < kept.pins → t.proxy[e].get h = { kept with filled := false })) ∧
      t.keyList = { s.keyList with
        events := s.keyList.events.map fun e =>
          if (keyListCopies s).any (fun c => e.mark == .inFlight c.1) then { e with mark := .pending } else e
        overflow := s.keyList.overflow ||
          (keyListCopies s).any fun c => c.2 && decide (s.keyList.cutBelow ≤ c.1) }

/-! ### Receive assembly -/

/-- R8: a good marker character in Idle or Skipping starts a frame in a Free buffer when 3 are Free, is a no-buffer
discard when fewer are, and is another drop's frame when the Field Port's filter stops it. R6, R7: how a station
stands at each port; the order of the tests where two stations are equal is the model's choice (log 32). -/
def Obligations.MarkerStartsFrame : Prop :=
  (∀ (s : State) (p : Port) (x : Byte), isDeaf s p = false →
    ((s.rx p).assembler = .idle ∨ (s.rx p).assembler = .skipping) →
    (if p = .field ∧ x ≠ ownStation s ∧ x ≠ mgmtStation s ∧ x ≠ 0 then
        exec (.receiveCharacter p (.taken ⟨x, true, true⟩)) s =
          .next (setAssembler p .skipping (restartSilence p s))
      else if 3 ≤ freeCount s then
        ∃ b : BufferId, s.pool[b].state = .free ∧
          exec (.receiveCharacter p (.taken ⟨x, true, true⟩)) s =
            .next (setAssembler p (.filling b (stationAddress p x s))
              (setBuffer b { state := .filling, port := p, bytes := [x] } (restartSilence p s)))
      else
        exec (.receiveCharacter p (.taken ⟨x, true, true⟩)) s =
          .next (setAssembler p .skipping (bump (Ctr.noBufferDiscards p) (restartSilence p s))))) ∧
  (∀ (s : State) (x : Byte),
    (stationAddress .host x s = .management ↔ x = 255) ∧
    (stationAddress .host x s = .own ↔ x ≠ 255 ∧ x = ownStation s) ∧
    (stationAddress .host x s = .other ↔ x ≠ 255 ∧ x ≠ ownStation s) ∧
    (stationAddress .field x s = .management ↔ x = mgmtStation s) ∧
    (stationAddress .field x s = .own ↔ x ≠ mgmtStation s ∧ x = ownStation s) ∧
    (stationAddress .field x s = .broadcast ↔ x ≠ mgmtStation s ∧ x ≠ ownStation s ∧ x = 0) ∧
    (stationAddress .field x s = .other ↔ x ≠ mgmtStation s ∧ x ≠ ownStation s ∧ x ≠ 0) ∧
    ownStation s = byte (settings s).ownStation.toNat ∧ mgmtStation s = byte (settings s).mgmtStation.toNat)

/-- R9, R12, R23: a plain character in Idle is stray, in Skipping it is ignored, a bad character in either is a
framing error, and a deaf Field Port receives nothing. R3: the silence ends at the start bit of a character (an event
of its own by the model's choice, log 36) and starts again at the end of its stop bit. R9, R13: more than 33 bit
times of silence (396 twelfths, counted at the model's ticks, log 3) return Skipping to Idle and end a frame in
Filling as a gap error; otherwise the two events change nothing. R3: a port takes up the rate of the live Settings
table once it has no frame in Filling and none being sent; the bit times already counted stand. -/
def Obligations.LineEventsOutsideFrames : Prop :=
  ((∀ (s : State) (p : Port) (x : Byte), isDeaf s p = false → (s.rx p).assembler = .idle →
     exec (.receiveCharacter p (.taken ⟨x, false, true⟩)) s =
       .next (setAssembler p .skipping (bump (Ctr.strayCharacters p) (restartSilence p s)))) ∧
   (∀ (s : State) (p : Port) (x : Byte), isDeaf s p = false → (s.rx p).assembler = .skipping →
     exec (.receiveCharacter p (.taken ⟨x, false, true⟩)) s = .next (restartSilence p s)) ∧
   (∀ (s : State) (p : Port) (x : Byte) (m : Bool), isDeaf s p = false →
     ((s.rx p).assembler = .idle ∨ (s.rx p).assembler = .skipping) →
     exec (.receiveCharacter p (.taken ⟨x, m, false⟩)) s =
       .next (bump (Ctr.framingErrors p) (restartSilence p s))) ∧
   (∀ (s : State) (e : Reception), fieldDirection s = true → exec (.receiveCharacter .field e) s = .next s)) ∧
  ((∀ (s : State) (p : Port), isDeaf s p = false → completedFrame p s = none →
     exec (.receiveCharacter p .startBit) s = .next (setRx p { s.rx p with busy := true, silence := 0 } s)) ∧
   (∀ (s : State) (p : Port), restartSilence p s = setRx p { s.rx p with busy := false, silence := 0 } s)) ∧
  ((∀ (s : State) (p : Port), exec (.skipTimeout p) s =
     .next (if (s.rx p).assembler = .skipping ∧ isDeaf s p = false ∧ (s.rx p).busy = false ∧
         396 < (s.rx p).silence then setAssembler p .idle s else s)) ∧
   (∀ (s : State) (p : Port) (b : BufferId) (a : Address), (s.rx p).assembler = .filling b a →
     frameIsComplete s.pool[b].bytes = false → exec (.gapError p) s =
     .next (if isDeaf s p = false ∧ (s.rx p).busy = false ∧ 396 < (s.rx p).silence then
         releaseBuffer b (bump (Ctr.gapErrors p) (setAssembler p .idle s))
       else s))) ∧
  (∀ (s : State) (p : Port), exec (.rateChangeApply p) s =
     .next (if isFilling p s = true ∨ isSending p s = true then s
       else match p with
         | .host => { s with hostPort.rx.rate := LineRate.ofCode (settings s).hostRate }
         | .field => { s with fieldPort.rx.rate := LineRate.ofCode (settings s).fieldRate }))

/-- R10, R11, R12: characters while an unfinished frame is in Filling: a plain one is appended, or is a length above
32; a marker cuts the frame and starts a new one; a bad one ends it. -/
def Obligations.CharactersInFilling : Prop :=
  ∀ (s : State) (p : Port) (b : BufferId) (a : Address) (x : Byte), isDeaf s p = false →
    (s.rx p).assembler = .filling b a → frameIsComplete s.pool[b].bytes = false →
    exec (.receiveCharacter p (.taken ⟨x, false, true⟩)) s =
      (if s.pool[b].bytes.length = 4 ∧ 32 < x.toNat then
        .next (releaseBuffer b (bump (Ctr.formatErrors p) (setAssembler p .skipping (restartSilence p s))))
      else .next (setBuffer b { s.pool[b] with bytes := s.pool[b].bytes ++ [x] } (restartSilence p s))) ∧
    exec (.receiveCharacter p (.taken ⟨x, true, true⟩)) s =
      .next (startFrame p x
        (releaseBuffer b (bump (Ctr.cutFrames p) (setAssembler p .idle (restartSilence p s))))) ∧
    ∀ m : Bool, exec (.receiveCharacter p (.taken ⟨x, m, false⟩)) s =
      .next (releaseBuffer b (bump (Ctr.framingErrors p) (setAssembler p .skipping (restartSilence p s))))

/-! ### Frames -/

/-- R14, R7: a completed frame whose check differs frees its buffer and is counted; a valid one is stamped, counted
and sent to its place by station and class. R177: a valid command frame of an unknown code is answered UnknownCommand
at once. That one of a known code joins a list in which it waits for the row of its command is the model's choice
(log 6). -/
def Obligations.FrameCompletionRule : Prop :=
  (∀ (s : State) (p : Port) (b : BufferId) (a : Address), FrameStands p b a s →
     (checkAgrees s.pool[b].bytes = false → exec (.frameComplete p) s =
       .next (releaseBuffer b (bump (Ctr.checkErrors p) (setAssembler p .idle s)))) ∧
     (checkAgrees s.pool[b].bytes = true →
       (a ≠ .management → exec (.frameComplete p) s =
         .next (routeFrame (routedFrame b a (arrived p b s)) (arrived p b s))) ∧
       (a = .management → frameClass s.pool[b].bytes ≠ .command → exec (.frameComplete p) s =
         .next (releaseBuffer b (bump (Ctr.misaddressedFrames p) (arrived p b s)))))) ∧
  (∀ (s : State) (p : Port) (b : BufferId), FrameStands p b .management s →
     checkAgrees s.pool[b].bytes = true → frameClass s.pool[b].bytes = .command →
     exec (.frameComplete p) s = .next
       (let u := arrived p b s
        let code := (frameTopic s.pool[b].bytes).toNat
        if 0x01 ≤ code ∧ code ≤ 0x11 then { u with mgmt.waiting := u.mgmt.waiting ++ [b] }
        else replyTo code (commandIn b u) .unknownCommand [] u))

/-- R4, R5: every frame the supervisor writes is complete and carries its check, and a received frame as sent has
control bit 2 clear, a fresh check and every other byte as received. -/
def Obligations.SentFramesCarryTheirCheck : Prop :=
  (∀ (station topic tag : Byte) (control : Nat) (payload : List Byte), payload.length ≤ 32 →
    frameIsComplete (frameBytes station control topic tag payload) = true ∧
    checkAgrees (frameBytes station control topic tag payload) = true ∧
    framePayload (frameBytes station control topic tag payload) = payload) ∧
  (∀ bs : List Byte, frameIsComplete bs = true →
    frameIsComplete (bytesAsSent bs) = true ∧ checkAgrees (bytesAsSent bs) = true ∧
    (byteAt (bytesAsSent bs) 1).getLsbD 2 = false ∧
    (∀ i : Nat, i < 8 → i ≠ 2 → (byteAt (bytesAsSent bs) 1).getLsbD i = (byteAt bs 1).getLsbD i) ∧
    (∀ i : Nat, i < 5 + frameLength bs → i ≠ 1 → byteAt (bytesAsSent bs) i = byteAt bs i))

/-! ### Routing -/

/-- R29: the eight flags after a pattern, each by its own two bits from the value standing before the update. -/
def Obligations.FlagPatternRule : Prop :=
  ∀ (p : Half) (f : BitVec 8) (i : Nat), i < 8 →
    (applyPattern p f).getLsbD i =
      (match p.getLsbD (2 * i + 1), p.getLsbD (2 * i) with
        | false, false => f.getLsbD i
        | false, true => true
        | true, false => false
        | true, true => !f.getLsbD i)

/-- R37: the winner is the entry with the lowest index that is valid, matches source, class, station kind and topic,
and whose condition is true; without such an entry there is no winner, and the frame takes the default handling. R31:
a condition is the fact that its selector names, inverted by its sense bit. -/
def Obligations.LookupFindsFirstMatch : Prop :=
  (∀ (f : RoutedFrame) (s : State),
    let fits : RouteId → Prop := fun i =>
      let e := s.tables.route.live[i]
      e.valid = true ∧ e.source = f.source ∧ e.cls.accepts f.cls = true ∧ e.station.accepts f.broadcast = true ∧
        e.topicLow.toNat ≤ f.topic.toNat ∧ f.topic.toNat ≤ e.topicHigh.toNat ∧ e.condition.holds s = true
    (∀ i : RouteId, lookup f s = some i ↔ (fits i ∧ ∀ j : RouteId, j < i → ¬fits j)) ∧
    (lookup f s = none ↔ ∀ i : RouteId, ¬fits i) ∧
    (lookup f s = none → ∀ m : Option ExchangeId, routeByLookup f m s = endMatched m (defaultHandling f s))) ∧
  (∀ (s : State) (n : BitVec 4),
    let fact := (⟨n, false⟩ : Condition).holds s
    ((⟨n, true⟩ : Condition).holds s = !fact) ∧
    (n.toNat < 8 → fact = s.flags.getLsbD n.toNat) ∧
    (n = 8 → (fact = true ↔ s.live.state = .running ∨ s.live.state = .warned)) ∧
    (n = 9 → (fact = true ↔ s.live.state = .powering ∨ s.live.state = .booting)) ∧
    (n = 10 → (fact = true ↔ s.temp.readiness = .ready)) ∧
    (n = 11 → (fact = true ↔ s.mgmt.permit ≠ none)) ∧
    (n = 12 → (fact = true ↔ s.keypad.flooded = false)) ∧
    (n = 13 → fact = s.heat.cutoffLine) ∧ (n = 14 → fact = s.mgmt.frozen) ∧ (n = 15 → fact = true))

/-- R38, R44, R46: a frame won by a Drop entry: the hit, the pattern, the buffer freed and counted, and then the
heartbeat of a host frame whose entry feeds. R85: what the heartbeat does: disregarded with trafficFeed no or in a
state that does not hear it, and otherwise counted, with the window started again in RUNNING and a move to RUNNING
from BOOTING and WARNED. -/
def Obligations.RouteDropRule : Prop :=
  (∀ (f : RoutedFrame) (s : State) (i : RouteId), GoesToLookup f s → lookup f s = some i →
    s.tables.route.live[i].action = .drop →
    routeFrame f s =
      (let u := releaseBuffer f.buffer (bump Ctr.routingRouteDrops (won i s))
       if s.tables.route.live[i].feed = true ∧ f.source = .host then trafficHeartbeat f.arrival u else u)) ∧
  (∀ (s : State) (now : Instant),
    ((settings s).trafficFeed = 0 ∨ s.live.state ∉ [.booting, .running, .warned] → trafficHeartbeat now s = s) ∧
    ((settings s).trafficFeed ≠ 0 → s.live.state = .running →
      trafficHeartbeat now s = bump Ctr.livenessTrafficHeartbeats { s with live := { s.live with
        timer := some ⟨now.ms, (settings s).windowMax.toNat⟩, lastHeartbeat := now.ms, earlyStreak := 0 } }) ∧
    ((settings s).trafficFeed ≠ 0 → s.live.state = .booting ∨ s.live.state = .warned →
      ∃ t : State, trafficHeartbeat now s = t ∧
        t.live = { s.live with
          state := .running, enteredAt := now.sec, lastHeartbeat := now.ms, earlyStreak := 0,
          failedRestarts := 0, lateReplies := 0,
          timer := some ⟨now.ms, (settings s).windowMax.toNat⟩ } ∧
        t.keyList.events = (if s.live.state = .booting then [] else s.keyList.events) ∧
        t.counters.liveness = (bump Ctr.livenessTrafficHeartbeats s).counters.liveness ∧
        t = { s with live := t.live, keyList := t.keyList, counters := t.counters }))

/-- R40, R51: a forwarded own Request with an entry and a queue place: the buffer joins the Host Transmit Queue and
the Late entry with the tag, or else the lowest Free one, is Waiting with the request's times. R40, R58: a forwarded
own Request without an entry or without a queue place is answered on the exchange-full path: the composed reply, the
buffer freed, the reply counted. R43: an own Request won by Answer: the reply composed, then the buffer freed. R41: a
forwarded broadcast Request joins the Host Transmit Queue without an exchange or is refused and counted, and a Forward
that wins a frame it cannot carry is a counted drop, with the heartbeat of R46 after it. -/
def Obligations.ForwardRequestRule : Prop :=
  (∀ (f : RoutedFrame) (s : State) (i : RouteId) (e : ExchangeId), f.isOwnRequest = true → GoesToLookup f s →
     lookup f s = some i → s.tables.route.live[i].action = .forward → s.hostPort.queue.length < 16 →
     (lateWith f.tag s = some e ∨ (lateWith f.tag s = none ∧ freeExchange s = some e)) →
     ∃ t : State, routeFrame f s = t ∧
       t.hostPort.queue = s.hostPort.queue ++ [f.buffer] ∧ t.pool[f.buffer].state = .queued ∧
       t.exchanges = s.exchanges.set e (.waiting ⟨f.tag, f.topic, f.arrival.ms,
         f.arrival.ms + BitVec.ofNat 32 (settings s).hostAnswerLimit.toNat, 0⟩) ∧
       t.flags = applyPattern s.tables.route.live[i].pattern s.flags ∧
       t = { s with pool := t.pool, hostPort := { s.hostPort with queue := t.hostPort.queue },
                    exchanges := t.exchanges, flags := t.flags, tables := (hit i s).tables,
                    counters := t.counters }) ∧
  (∀ (f : RoutedFrame) (s : State) (i : RouteId), f.isOwnRequest = true → GoesToLookup f s →
     lookup f s = some i → s.tables.route.live[i].action = .forward →
     (16 ≤ s.hostPort.queue.length ∨ (lateWith f.tag s = none ∧ freeExchange s = none)) →
     routeFrame f s = releaseBuffer f.buffer (bump Ctr.exchangesExchangeFullReplies
       (composeReply .exchangeFull f.topic f.tag (!hostUp s) f.arrival (won i s)))) ∧
  (∀ (f : RoutedFrame) (s : State) (i : RouteId), f.isOwnRequest = true → GoesToLookup f s →
     lookup f s = some i → s.tables.route.live[i].action = .answer →
     routeFrame f s = releaseBuffer f.buffer
       (composeReply .answer f.topic f.tag (!hostUp s) f.arrival (won i s))) ∧
  (∀ (f : RoutedFrame) (s : State) (i : RouteId), f.isBroadcastRequest = true → lookup f s = some i →
     s.tables.route.live[i].action = .forward →
     routeFrame f s = (if s.hostPort.queue.length < 16 then enqueueHost f.buffer (won i s)
       else releaseBuffer f.buffer (bump Ctr.routingRefusedBroadcasts (won i s)))) ∧
  (∀ (f : RoutedFrame) (s : State) (i : RouteId), f.isOwnRequest = false → f.isBroadcastRequest = false →
     f.isHostReply = false → lookup f s = some i → s.tables.route.live[i].action = .forward →
     routeFrame f s =
       (let u := releaseBuffer f.buffer (bump Ctr.routingUnforwardableFrames (won i s))
        if s.tables.route.live[i].feed = true ∧ f.source = .host then trafficHeartbeat f.arrival u else u))

/-- R35, R52: an own Request whose tag a Waiting entry holds is absorbed: the retry counts, the buffer freed, and no
other field of the entry changed. R36: a host Reply that carries another station, or a tag that no Waiting or Late
entry holds, is unsolicited. -/
def Obligations.RetriesAndUnsolicitedReplies : Prop :=
  (∀ (f : RoutedFrame) (s : State) (e : ExchangeId) (r : Request), f.isOwnRequest = true →
     isKeyListRequest f s = false → waitingWith f.tag s = some e → s.exchanges[e] = .waiting r →
     routeFrame f s = releaseBuffer f.buffer (bump Ctr.exchangesRetriesAbsorbed
       (setExchange e (.waiting { r with retries := if r.retries = 255 then 255 else r.retries + 1 }) s))) ∧
  (∀ (f : RoutedFrame) (s : State), f.isHostReply = true →
     (f.own = false ∨ (waitingWith f.tag s = none ∧ lateWith f.tag s = none)) →
     routeFrame f s = releaseBuffer f.buffer (bump Ctr.routingUnsolicitedReplies s))

/-- R42, R44, R45, R46, R53: a host Reply matched to a Waiting entry and won by Forward or Drop: the capture first;
then the buffer joins the Field Transmit Queue, or is dropped and counted; then the entry is Free and the answer
counted; then the heartbeat of an entry that feeds. R39: won by none, it is forwarded without capture or feed. R45,
R55: a host Reply matched to a Late entry: the winner's hit and capture and no other part of its action; the buffer
freed, the late reply counted by the Exchange Tracker and for the Restart Log, and then the LATE notice with the
entry's tag and topic and the milliseconds from its open time to the arrival. No flag and no exchange changes, and
nothing goes to the field. -/
def Obligations.HostReplyRule : Prop :=
  (∀ (f : RoutedFrame) (s : State) (i : RouteId) (e : ExchangeId), f.isHostReply = true → f.own = true →
     waitingWith f.tag s = some e → lookup f s = some i → s.tables.route.live[i].action ≠ .answer →
     routeFrame f s =
       (let entry := s.tables.route.live[i]
        let captured :=
          if entry.capture = true then capture f.topic f.payload f.arrival (won i s) else won i s
        let acted :=
          if entry.action = .drop then releaseBuffer f.buffer (bump Ctr.routingRouteDrops captured)
          else if s.fieldPort.queue.length < 16 then enqueueFieldBuffer f.buffer captured
          else releaseBuffer f.buffer (bump Ctr.droppedForwardedReplies captured)
        let freed := bump Ctr.exchangesAnsweredExchanges (setExchange e .free acted)
        if entry.feed = true then trafficHeartbeat f.arrival freed else freed)) ∧
  (∀ (f : RoutedFrame) (s : State) (e : ExchangeId), f.isHostReply = true → f.own = true →
     waitingWith f.tag s = some e → lookup f s = none →
     routeFrame f s = bump Ctr.exchangesAnsweredExchanges (setExchange e .free
       (if s.fieldPort.queue.length < 16 then enqueueFieldBuffer f.buffer s
         else releaseBuffer f.buffer (bump Ctr.droppedForwardedReplies s)))) ∧
  (∀ (f : RoutedFrame) (s : State) (e : ExchangeId) (r : Request) (hold : Timer), f.isHostReply = true →
     f.own = true → waitingWith f.tag s = none → lateWith f.tag s = some e → s.exchanges[e] = .late r hold →
     let looked := match lookup f s with
       | some i =>
         if s.tables.route.live[i].capture = true then capture f.topic f.payload f.arrival (hit i s) else hit i s
       | none => s
     let freed := releaseBuffer f.buffer looked
     let counted := bump Ctr.exchangesLateReplies { freed with live := { freed.live with
       lateReplies := if s.live.lateReplies = 255 then 255 else s.live.lateReplies + 1 } }
     ∃ t : State, routeFrame f s = t ∧
       t = composeNotice 0xC2
         ([r.tag, r.topic] ++ be16 (min 65535 (f.arrival.ms - r.openTime).toNat)) counted ∧
       t.exchanges = s.exchanges ∧ t.flags = s.flags ∧
       t.live = { s.live with
         lateReplies := if s.live.lateReplies = 255 then 255 else s.live.lateReplies + 1 } ∧
       t.fieldPort = s.fieldPort ∧
       (s.live.state.composesNotices = false → t.hostPort = s.hostPort ∧ t.noticeNo = s.noticeNo))

/-- R39: what is done with a frame that no entry wins: an own Request while the host is not up receives an empty reply
with E, H and P set, and while it is up goes to it under an exchange or takes the exchange-full path; a broadcast
Request goes to a host that is up; every other frame but a host Reply is a counted default drop. R34, R70: a keyTopic
request while the host is not up takes every pending event into one descriptor, with its code and age, and the
overflow mark with it. -/
def Obligations.RepliesWhileHostIsDown : Prop :=
  (∀ (f : RoutedFrame) (s : State), f.isOwnRequest = true → GoesToLookup f s → lookup f s = none →
     hostUp s = false → s.fieldPort.queue.length < 16 →
     ∃ t : State, routeFrame f s = t ∧
       t.fieldPort = { s.fieldPort with queue := s.fieldPort.queue ++
         [.reply ⟨ownStation s, f.topic, f.tag, ⟨false, true, false, true⟩, .nothing⟩] } ∧
       t.pool = s.pool.set f.buffer {} ∧ t.hostPort = s.hostPort ∧ t.tables = s.tables ∧ t.flags = s.flags ∧
       t.exchanges = s.exchanges ∧ t.live = s.live) ∧
  (∀ (f : RoutedFrame) (s : State), f.isOwnRequest = true → isKeyListRequest f s = true →
     s.fieldPort.queue.length < 16 →
     ∃ t : State, routeFrame f s = t ∧
       t.fieldPort = { s.fieldPort with queue := s.fieldPort.queue ++
         [.reply ⟨ownStation s, f.topic, f.tag, ⟨false, false, false, true⟩,
           .keyList s.keyList.nextCopy
             (s.keyList.pending.map fun e => (e.code, byte (min 255 (elapsed e.stamp f.arrival.sec))))
             s.keyList.overflow⟩] } ∧
       t.keyList.overflow = false ∧ t.keyList.pending = [] ∧
       t.keyList.events.map (fun e => (e.code, e.stamp)) = s.keyList.events.map (fun e => (e.code, e.stamp)) ∧
       t.pool = s.pool.set f.buffer {} ∧ t.tables = s.tables ∧ t.exchanges = s.exchanges ∧ t.flags = s.flags) ∧
  (∀ (f : RoutedFrame) (s : State), f.isOwnRequest = true → GoesToLookup f s → lookup f s = none →
     hostUp s = true →
     (∀ e : ExchangeId, s.hostPort.queue.length < 16 →
       (lateWith f.tag s = some e ∨ (lateWith f.tag s = none ∧ freeExchange s = some e)) →
       ∃ t : State, routeFrame f s = t ∧
         t.hostPort.queue = s.hostPort.queue ++ [f.buffer] ∧ t.pool[f.buffer].state = .queued ∧
         t.exchanges = s.exchanges.set e (.waiting ⟨f.tag, f.topic, f.arrival.ms,
           f.arrival.ms + BitVec.ofNat 32 (settings s).hostAnswerLimit.toNat, 0⟩) ∧
         t = { s with pool := t.pool, hostPort := { s.hostPort with queue := t.hostPort.queue },
                      exchanges := t.exchanges, counters := t.counters }) ∧
     ((16 ≤ s.hostPort.queue.length ∨ (lateWith f.tag s = none ∧ freeExchange s = none)) →
       routeFrame f s = releaseBuffer f.buffer (bump Ctr.exchangesExchangeFullReplies
         (composeReply .exchangeFull f.topic f.tag false f.arrival s)))) ∧
  (∀ (f : RoutedFrame) (s : State), f.isBroadcastRequest = true → lookup f s = none →
     routeFrame f s =
       (if hostUp s = false then releaseBuffer f.buffer (bump Ctr.routingDefaultDrops s)
       else if s.hostPort.queue.length < 16 then enqueueHost f.buffer s
       else releaseBuffer f.buffer (bump Ctr.routingRefusedBroadcasts s))) ∧
  (∀ (f : RoutedFrame) (s : State), f.isOwnRequest = false → f.isBroadcastRequest = false → f.isHostReply = false →
     lookup f s = none →
     routeFrame f s = releaseBuffer f.buffer (bump Ctr.routingDefaultDrops s))

/-! ### Composed replies and the Proxy Store -/

/-- R62: a reply composed for Answer or expiry from a topic's entry: the active half is referenced and pinned when
it is Filled and has room for a pin, a busy reply is composed at 16 pins, an empty one when there is nothing to
read. R58: on the exchange-full path a busy reply stands in the place of the empty one. R19, R63, R72: a composed
reply refused by a full Field Transmit Queue is counted, its pin is released, its key-list events return to pending,
and nothing is queued. That a half which a commit emptied keeps its length and stamp after its last pin is the model's
choice (log 37). -/
def Obligations.ComposedReplyRule : Prop :=
  (∀ (s : State) (purpose : ReplyPurpose) (topic tag : Byte) (h : Bool) (now : Instant),
     s.fieldPort.queue.length < 16 →
     let withoutHalf : ReplyFlags :=
       if purpose = .exchangeFull then ⟨true, false, false, h⟩ else ⟨false, true, false, h⟩
     ∃ (d : Descriptor) (t : State), composeReply purpose topic tag h now s = t ∧
       d.station = ownStation s ∧ d.topic = topic ∧ d.tag = tag ∧ d.flags.h = h ∧
       t.fieldPort = { s.fieldPort with queue := s.fieldPort.queue ++ [.reply d] } ∧
       (match proxyFor topic s with
         | none => d.source = .nothing ∧ d.flags = withoutHalf ∧ t.proxy = s.proxy
         | some e =>
           let r := s.proxy[e]
           let half := r.get r.active
           if half.filled = false then
             d.source = .nothing ∧ d.flags = withoutHalf ∧ t.proxy = s.proxy
           else if half.pins < 16 then
             d.source = .half e r.active ∧ d.flags.b = false ∧ d.flags.e = false ∧
             (d.flags.s = true ↔ s.tables.proxy.live[e].maxAge ≠ 0 ∧
               s.tables.proxy.live[e].maxAge.toNat < elapsed half.stamp now.sec) ∧
             t.proxy = s.proxy.set e (r.set r.active { half with pins := half.pins + 1 })
           else d.source = .nothing ∧ d.flags = ⟨true, false, false, h⟩ ∧ t.proxy = s.proxy) ∧
       t = { s with fieldPort := t.fieldPort, proxy := t.proxy, counters := t.counters }) ∧
  (∀ (s : State) (d : Descriptor), 16 ≤ s.fieldPort.queue.length →
     ∃ t : State, offerReply d s = t ∧ t.fieldPort = s.fieldPort ∧
       t.counters = (bump Ctr.droppedComposedReplies s).counters ∧
       (∀ (e : ProxyId) (h : HalfId), d.source = .half e h →
         t.proxy = s.proxy.set e
           (s.proxy[e].set h { s.proxy[e].get h with pins := (s.proxy[e].get h).pins - 1 })) ∧
       (∀ (n : Nat) (evs : List (Byte × Byte)) (o : Bool), d.source = .keyList n evs o →
         (∀ e ∈ t.keyList.events, e.mark ≠ .inFlight n) ∧
         t.keyList.events.map (fun e => (e.code, e.stamp)) =
           s.keyList.events.map (fun e => (e.code, e.stamp)) ∧
         t.keyList.overflow = (s.keyList.overflow || (o && decide (s.keyList.cutBelow ≤ n)))))

/-- R64: a captured payload goes whole into the unpinned inactive half of the topic's entry, which becomes active; a
pinned inactive half or a missing entry is only counted. -/
def Obligations.CaptureRule : Prop :=
  ∀ (s : State) (topic : Byte) (payload : List Byte) (now : Instant),
    capture topic payload now s =
      (match proxyFor topic s with
        | none => bump Ctr.proxyCapturesWithoutEntry s
        | some e =>
          let r := s.proxy[e]
          if 0 < (r.get r.active.other).pins then bump Ctr.proxyCapturesSkipped s
          else bump Ctr.proxyCaptures { s with
            proxy := s.proxy.set e
              { r.set r.active.other ⟨true, payload, now.sec, 0⟩ with active := r.active.other } })

/-- R63: no command but a reset changes the bytes or the stamp of a half that is pinned when it begins. The in-band
reset, which first releases every pin (R68), comes only at the end of its Done reply or at that reply's refusal. -/
def Obligations.PinnedHalvesKeepTheirBytes : Prop :=
  ∀ (c : Instr) (s t : State) (e : ProxyId) (h : HalfId), exec c s = .next t →
    c ≠ .powerOnReset → c ≠ .resetLineReset →
    (c = .transmissionComplete .host → s.mgmt.resetPending = none) →
    (∀ p : Port, c = .supervisorReset p → s.hostPort.queue.length < 16) → 0 < (s.proxy[e].get h).pins →
    (t.proxy[e].get h).payload = (s.proxy[e].get h).payload ∧
    (t.proxy[e].get h).stamp = (s.proxy[e].get h).stamp

/-! ### Transmission -/

/-- R21, R2: the idle Host Port takes the head of its queue; the buffer is Sending and goes out as characters, the
marker bit on the first alone and every stop bit 1. KEY notices may use the place (R167). -/
def Obligations.HostTransmitStartRule : Prop :=
  ∀ (s : State) (b : BufferId) (rest : List BufferId), s.hostPort.sending = none → s.hostPort.queue = b :: rest →
    exec .hostTransmitStart s = .next (composeKeyNotices { s with
      pool := s.pool.set b { s.pool[b] with state := .sending }
      hostPort := { s.hostPort with
        sending := some ⟨b, onLine (bytesAsSent s.pool[b].bytes)⟩, queue := rest } }) ∧
    (onLine (bytesAsSent s.pool[b].bytes)).map (·.data) = bytesAsSent s.pool[b].bytes ∧
    (∀ x ∈ onLine (bytesAsSent s.pool[b].bytes), x.stop = true) ∧
    (onLine (bytesAsSent s.pool[b].bytes)).map (·.marker) =
      true :: List.replicate ((bytesAsSent s.pool[b].bytes).length - 1) false

/-- R20, R22: the Field Port starts the head of its queue after 22 bit times of quiet with no frame in Filling; a
descriptor goes out as a Reply with P set, its flags, and the payload read from its source. That the quiet is read at
the model's ticks, as 264 twelfths of a bit time on a line where no character has begun, is the model's choice
(logs 3 and 36). -/
def Obligations.FieldTransmitStartRule : Prop :=
  ∀ (s : State) (i : FieldItem) (rest : List FieldItem), s.fieldPort.sending = none → s.fieldPort.queue = i :: rest →
    (∀ (b : BufferId) (a : Address), s.fieldPort.rx.assembler ≠ .filling b a) →
    s.fieldPort.rx.busy = false → 264 ≤ s.fieldPort.rx.silence →
    ∃ t : State, exec .fieldTransmitStart s = .next t ∧ fieldDirection t = true ∧
      t.fieldPort = { s.fieldPort with
        sending := some ⟨i, onLine (match i with
          | .buffer b => bytesAsSent s.pool[b].bytes
          | .reply d => frameBytes d.station
              (0x81 + 8 * bit d.flags.b + 16 * bit d.flags.e + 32 * bit d.flags.s + 64 * bit d.flags.h)
              d.topic d.tag (match d.source with
                | .nothing => []
                | .half e h => (s.proxy[e].get h).payload
                | .keyList _ evs o => byte evs.length :: byte (bit o) :: evs.flatMap fun e => [e.1, e.2]))⟩
        queue := rest } ∧
      t.pool = (match i with
        | .buffer b => s.pool.set b { s.pool[b] with state := .sending }
        | .reply _ => s.pool) ∧
      t = { s with pool := t.pool, fieldPort := t.fieldPort }

/-- R24, R23: the end of a sent frame: the buffer Free, or the half's pin released, or the copy's events removed and
counted as delivered; the direction output is off and the field assembler Idle. That a half which a commit emptied
keeps its length and stamp after its last pin is the model's choice (log 37). -/
def Obligations.TransmissionEndReleases : Prop :=
  (∀ (s : State) (x : HostTransmission), s.hostPort.sending = some x → s.mgmt.resetPending ≠ some x.buffer →
    exec (.transmissionComplete .host) s =
      .next (releaseBuffer x.buffer (bump (Ctr.framesSent .host) { s with hostPort.sending := none }))) ∧
  (∀ (s : State) (x : FieldTransmission), s.fieldPort.sending = some x →
    ∃ t : State, exec (.transmissionComplete .field) s = .next t ∧ fieldDirection t = false ∧
      t.fieldPort.rx = { s.fieldPort.rx with assembler := .idle, busy := false, silence := 0 } ∧
      t.fieldPort.queue = s.fieldPort.queue ∧
      (∀ b : BufferId, x.item = .buffer b →
        t = releaseBuffer b (bump (Ctr.framesSent .field) { s with fieldPort := t.fieldPort })) ∧
      (∀ (d : Descriptor) (e : ProxyId) (h : HalfId), x.item = .reply d → d.source = .half e h →
        t.proxy = s.proxy.set e
          (s.proxy[e].set h { s.proxy[e].get h with pins := (s.proxy[e].get h).pins - 1 }) ∧
        t.pool = s.pool ∧ t.keyList = s.keyList) ∧
      (∀ (d : Descriptor) (n : Nat) (evs : List (Byte × Byte)) (o : Bool), x.item = .reply d →
        d.source = .keyList n evs o →
        t.keyList.events = s.keyList.events.filter (fun e => e.mark != .inFlight n) ∧
        t.keyList.overflow = s.keyList.overflow ∧ t.proxy = s.proxy ∧ t.pool = s.pool ∧
        t.counters = (bumpBy Ctr.proxyKeyEventsDelivered evs.length (bump (Ctr.framesSent .field) s)).counters))

/-- R167, R17: composing KEY notices: nothing happens unless all four conditions hold; otherwise the oldest records,
at most 8, leave the queue in one notice of 4 bytes each with the next notice number, and composition goes on. R17:
every other notice is composed in BOOTING, RUNNING and WARNED alone, joins the Host Transmit Queue in a Free buffer,
and is dropped and counted, its number used up, without a buffer or a place. That a notice carries the number as it
stands before its own count is the model's choice (log 20), and so is the moment of composition (log 10). -/
def Obligations.KeyNoticeRule : Prop :=
  (∀ s : State,
    ((hostUp s = false ∨ s.keyUnit.queue = [] ∨ freeCount s = 0 ∨ 16 ≤ s.hostPort.queue.length) →
      composeKeyNotices s = s) ∧
    (hostUp s = true → s.keyUnit.queue ≠ [] → 0 < freeCount s → s.hostPort.queue.length < 16 →
      ∃ (b : BufferId) (u : State), s.pool[b].state = .free ∧ composeKeyNotices s = composeKeyNotices u ∧
        u.pool = s.pool.set b
          { state := .queued
            bytes := frameBytes 255 2 0xC0 s.noticeNo ((s.keyUnit.queue.take 8).flatMap KeyEvent.encode) } ∧
        u.hostPort.queue = s.hostPort.queue ++ [b] ∧ u.keyUnit.queue = s.keyUnit.queue.drop 8 ∧
        u.noticeNo = s.noticeNo + 1 ∧
        u = { s with pool := u.pool, hostPort := { s.hostPort with queue := u.hostPort.queue },
                     keyUnit := { s.keyUnit with queue := u.keyUnit.queue }, noticeNo := u.noticeNo,
                     counters := u.counters })) ∧
  (∀ (s : State) (topic : Byte) (payload : List Byte),
    (s.live.state ∉ [.booting, .running, .warned] → composeNotice topic payload s = s) ∧
    (s.live.state ∈ [.booting, .running, .warned] → (freeCount s = 0 ∨ 16 ≤ s.hostPort.queue.length) →
      composeNotice topic payload s = bump Ctr.droppedNotices { s with noticeNo := s.noticeNo + 1 }) ∧
    (s.live.state ∈ [.booting, .running, .warned] → 0 < freeCount s → s.hostPort.queue.length < 16 →
      ∃ b : BufferId, s.pool[b].state = .free ∧
        composeNotice topic payload s = { s with
          pool := s.pool.set b { state := .queued, bytes := frameBytes 255 2 topic s.noticeNo payload }
          hostPort := { s.hostPort with queue := s.hostPort.queue ++ [b] }
          noticeNo := s.noticeNo + 1 }))

/-! ### Exchanges -/

/-- R54: a Waiting exchange at its deadline becomes Late with its lateHold running, and one reply is composed with H
set when the host is not up. R56: a Late exchange whose lateHold has run becomes Free and nothing else changes. That
either expiry changes nothing before its time is the model's choice (log 2). -/
def Obligations.ExchangeTimerRules : Prop :=
  (∀ (s : State) (i : ExchangeId) (r : Request), s.exchanges[i] = .waiting r →
     exec (.exchangeDeadlineExpiry i) s = .next
       (if (r.deadline - r.openTime).toNat ≤ (s.clock.ms - r.openTime).toNat then
         bumpBy Ctr.exchangesRetriesBeforeExpiry r.retries.toNat (bump Ctr.exchangesExpiries
           (composeReply .expiry r.topic r.tag (!hostUp s) s.clock
             { s with exchanges :=
                 s.exchanges.set i (.late r ⟨s.clock.ms, (settings s).lateHold.toNat⟩) }))
       else s)) ∧
  (∀ (s : State) (i : ExchangeId) (r : Request) (hold : Timer), s.exchanges[i] = .late r hold →
     exec (.lateHoldExpiry i) s = .next
       (if hold.length ≤ (s.clock.ms - hold.start).toNat then { s with exchanges := s.exchanges.set i .free } else s))

/-! ### Liveness -/

/-- R76: host power enable is asserted in exactly six states and host reset in exactly two. R80, R81, R88:
powerSettle in POWERING and resetPulse in RESETTING end in BOOTING with bootGrace running, the boot time recorded
and nothing else changed. R82, R83: windowMax in RUNNING
ends in WARNED with warnGrace running, one STATE notice that carries it, and one warning counted. R89, R79, R108:
cycleOff in CYCLING ends in POWERING when readiness is Ready and Hot is not raised, and otherwise in COLD HOLD with
the fallback start at that moment; host power coming on blocks the heaters that are then not allowed (R124).
R91: stopDelay in STOPPING ends in OFF with a HostShutdown record, and nothing
else changes. That an expiry before its time, or in a state that did not start its timer, changes nothing is the
model's choice (log 2). -/
def Obligations.LivenessTimerRules : Prop :=
  (∀ s : State,
     (hostPowerEnable s = true ↔ s.live.state ∈ [.powering, .booting, .running, .warned, .resetting, .stopping]) ∧
     (hostReset s = true ↔ s.live.state ∈ [.powering, .resetting])) ∧
  (∀ s : State, ∀ p ∈ [(Instr.powerSettleExpiry, Liveness.powering), (Instr.resetPulseExpiry, Liveness.resetting)],
     exec p.1 s = .next
       (if livenessTimerDue p.2 s = true then
         { s with live := { s.live with
           state := .booting, enteredAt := s.clock.sec, bootTime := some s.clock,
           timer := some ⟨s.clock.ms, (settings s).bootGrace.toNat * 1000⟩ } }
       else s)) ∧
  (∀ s : State, exec .windowMaxExpiry s = .next
     (if livenessTimerDue .running s = true then
       bump Ctr.livenessWarnings (composeNotice 0xC1
         ([5, 1] ++ be16 (min 65535 (settings s).warnGrace.toNat))
         { s with live := { s.live with
           state := .warned, enteredAt := s.clock.sec,
           timer := some ⟨s.clock.ms, (settings s).warnGrace.toNat⟩ } })
     else s)) ∧
  (∀ s : State, livenessTimerDue .cycling s = true → ∃ t : State, exec .cycleOffExpiry s = .next t ∧
     (if s.temp.readiness = .ready ∧ s.temp.hot = false then
       t.live = { s.live with
         state := .powering, enteredAt := s.clock.sec, bootTime := none,
         timer := some ⟨s.clock.ms, (settings s).powerSettle.toNat⟩ } ∧ t.temp = s.temp
     else
       t.live = { s.live with state := .coldHold, enteredAt := s.clock.sec, timer := none } ∧
       t.temp.fallbackStart = some s.clock.ms ∧ t.heat = s.heat) ∧
     PowerHandOver s t ∧ t.fan = s.fan ∧ t.keyUnit = s.keyUnit ∧ t.fieldPort = s.fieldPort ∧
     t.tables = s.tables ∧ t.exchanges = s.exchanges ∧ t.log = s.log) ∧
  (∀ s : State, exec .stopDelayExpiry s = .next
     (if livenessTimerDue .stopping s = true then
       { s with
         live := { s.live with state := .off, enteredAt := s.clock.sec, timer := none }
         log := s.log.append ⟨s.log.nextSeq, .hostShutdown, .powerOff, s.clock.sec, uptimeAt s.live s.clock,
           loggedBoardTemp s, s.live.lateReplies, false⟩ }
     else s))

/-- R86, R87, R94, R96: a counted restart, for bootGrace in BOOTING and warnGrace in WARNED: the budget is aged, a
spent one latches, any other is charged and ends in a reset pulse or a power cycle; a record is written. R57, R168:
leaving HostUp from WARNED expires every Waiting exchange with H set and flushes the Key Event Queue; from BOOTING
neither changes. That the order of expiry is that of the time since opening, modulo 2^32, is the model's choice
(log 33). -/
def Obligations.CountedRestartRule : Prop :=
  ∀ (s : State), ∀ p ∈ [(Instr.bootGraceExpiry, Liveness.booting, RestartCause.bootTimeout),
      (Instr.warnGraceExpiry, Liveness.warned, RestartCause.watchdogExpiry)],
    livenessTimerDue p.2.1 s = true →
    ∃ t : State, exec p.1 s = .next t ∧
      (let aged := s.live.budget.dropWhile fun e => decide ((settings s).budgetWindow.toNat < elapsed e s.clock.sec)
       let failed := satAdd s.live.failedRestarts 1
       let record : RestartAction → LogRecord := fun act =>
         ⟨s.log.nextSeq, p.2.2, act, s.clock.sec, uptimeAt s.live s.clock, loggedBoardTemp s, s.live.lateReplies, true⟩
       if (settings s).maxRestarts.toNat ≤ aged.length then
         t.live = { s.live with state := .latched, enteredAt := s.clock.sec, timer := none, budget := aged } ∧
         t.log = s.log.append (record .powerOff)
       else if (settings s).resetEscalation.toNat ≤ failed.toNat then
         t.live = { s.live with
           state := .cycling, enteredAt := s.clock.sec, budget := aged ++ [s.clock.sec], failedRestarts := failed,
           timer := some ⟨s.clock.ms, (settings s).cycleOff.toNat * 1000⟩ } ∧
         t.log = s.log.append (record .powerCycle)
       else
         t.live = { s.live with
           state := .resetting, enteredAt := s.clock.sec, budget := aged ++ [s.clock.sec], failedRestarts := failed,
           timer := some ⟨s.clock.ms, (settings s).resetPulse.toNat⟩ } ∧
         t.log = s.log.append (record .resetPulse)) ∧
      (p.2.1 = .warned → LeavesHostUp s t) ∧ HostUpHandOver s t ∧
      t.temp = s.temp ∧ t.heat = s.heat ∧ t.fan = s.fan ∧ t.tables = s.tables ∧ t.flags = s.flags ∧
      t.keyUnit.records = s.keyUnit.records ∧ t.hostPort = s.hostPort ∧ t.mgmt = s.mgmt ∧ t.store = s.store

/-- R87: liveness leaves LATCHED only through HOST RELEASE, a ReleaseHost chord, or a power-on or reset-line reset.
-/
def Obligations.LatchedIsLeftOnlyByRelease : Prop :=
  ∀ (c : Instr) (s t : State), exec c s = .next t → s.live.state = .latched → t.live.state ≠ .latched →
    c = .powerOnReset ∨ c = .resetLineReset ∨ (∃ p : Port, c = .hostRelease p) ∨
    (∃ k : ChordId, c = .chordFire k ∧ s.tables.chord.live[k].action = .releaseHost)

/-- R75: liveness has a running timer in exactly the states that the table of section 4.1 gives one, after every
command. -/
def Obligations.TimerMatchesStateKept : Prop :=
  ∀ (c : Instr) (s t : State), TimerMatchesState s → exec c s = .next t → TimerMatchesState t

/-! ### Temperature -/

/-- R105: a code's temperature lies on its segment of the curve: the point at a multiple of 256, otherwise the lower
point plus the product over 256, rounded to the nearest whole number with an exact half toward plus infinity, and
for points in the temperature range it lies between the segment's two points. -/
def Obligations.ConversionRule : Prop :=
  ∀ (curve : CurveTable) (k r : Nat) (hk : k < 16), r < 256 → (∀ i : Fin 17, -500 ≤ curve[i] ∧ curve[i] ≤ 1500) →
    let lo := curve[k]
    let hi := curve[k + 1]
    let v := convert curve (256 * k + r)
    (r = 0 → v = lo) ∧
    (-128 ≤ (hi - lo) * r - 256 * (v - lo) ∧ (hi - lo) * r - 256 * (v - lo) < 128) ∧
    min lo hi ≤ v ∧ v ≤ max lo hi

/-- R101, R102, R106: what a sampling event makes of a channel: a valid code seeds an Unseeded or Faulted channel
and moves a Valid one a quarter of the difference, fraction discarded toward zero; a fault code holds the value.
R101, R104, R113, R114, R92: a sampling event that is due updates the three channels from their codes and curves,
decides Hot from the working Board value that results, and a Hot raised while the host is powered moves liveness to
HOT HOLD with an uncounted OverTemperature record of a PowerOff, its counter and what leaving HostUp does (R96). R79,
R92, R112: Hot cleared in HOT HOLD, and Hot cleared or readiness made Ready in COLD HOLD, are what else moves liveness;
otherwise it stays, and no record is written. R57, R168, R124: what the exchanges, the keys and the heaters take from
that; the order of expiry is the model's choice (log 33). R113, R114: Hot by the working Board value, and what is counted
of it. R103: a change into or out of Faulted is counted and noticed. R107: the two working values, taken from Air
where their own channel is not Valid. R138: a learn is abandoned when Board or Air leaves Valid. That an event which is
not due changes nothing is the model's choice (log 22). -/
def Obligations.TemperatureSampleRule : Prop :=
  (∀ (curve : CurveTable) (code : SensorCode) (f : Int) (held : Option Int),
     (16 ≤ code.toNat ∧ code.toNat ≤ 4079 →
       Channel.unseeded.sampled curve code.toNat = .valid (convert curve code.toNat) ∧
       (Channel.faulted held).sampled curve code.toNat = .valid (convert curve code.toNat) ∧
       (Channel.valid f).sampled curve code.toNat = .valid (f + (convert curve code.toNat - f).tdiv 4)) ∧
     (¬(16 ≤ code.toNat ∧ code.toNat ≤ 4079) →
       Channel.unseeded.sampled curve code.toNat = .faulted none ∧
       (Channel.faulted held).sampled curve code.toNat = .faulted held ∧
       (Channel.valid f).sampled curve code.toNat = .faulted (some f))) ∧
  (∀ (s : State) (board glass air : SensorCode),
     let curve : Int → CurveTable := fun choice =>
       if choice = 0 then s.tables.curveA.live else s.tables.curveB.live
     (elapsed s.temp.lastSample s.clock.ms < 100 → exec (.temperatureSample board glass air) s = .next s) ∧
     (100 ≤ elapsed s.temp.lastSample s.clock.ms →
       ∃ t : State, exec (.temperatureSample board glass air) s = .next t ∧
         t.temp.board = s.temp.board.sampled (curve (settings s).boardCurve) board.toNat ∧
         t.temp.glass = s.temp.glass.sampled (curve (settings s).glassCurve) glass.toNat ∧
         t.temp.air = s.temp.air.sampled (curve (settings s).airCurve) air.toNat ∧
         t.temp.hot = (match workingBoard t with
           | none => false
           | some b => if s.temp.hot = true then decide ((settings s).resumeTemp ≤ b)
               else decide ((settings s).shutdownTemp ≤ b)) ∧
         (s.temp.hot = false → t.temp.hot = true → hostPowerEnable s = true →
           t.live.state = .hotHold ∧ hostPowerEnable t = false) ∧
         (let raised := s.temp.hot = false ∧ t.temp.hot = true ∧ hostPowerEnable s = true
          let powering : LivenessController := { s.live with
            state := .powering, enteredAt := s.clock.sec, bootTime := none,
            timer := some ⟨s.clock.ms, (settings s).powerSettle.toNat⟩ }
          t.log = (if raised then s.log.append ⟨s.log.nextSeq, .overTemperature, .powerOff, s.clock.sec,
            uptimeAt s.live s.clock, loggedBoardTemp t, s.live.lateReplies, false⟩ else s.log) ∧
          t.counters.liveness = (if raised then (bump Ctr.livenessOverTemperaturePowerOffs s).counters.liveness
            else s.counters.liveness) ∧
          (let sampled := evaluateHot (evaluateReadiness s.clock
             (sampleChannels board glass air { s with temp := { s.temp with lastSample := s.temp.lastSample + 100 } }))
           (raised → hostUp s = true → LeavesHostUp sampled t) ∧
           HostUpHandOver sampled t ∧ PowerHandOver sampled t) ∧
          t.live =
            (if raised then { s.live with state := .hotHold, enteredAt := s.clock.sec, timer := none }
            else if s.live.state = .hotHold ∧ s.temp.hot = true ∧ t.temp.hot = false then
              if t.temp.readiness = .ready then powering
              else { s.live with state := .coldHold, enteredAt := s.clock.sec, timer := none }
            else if s.live.state = .coldHold ∧ t.temp.hot = false ∧ t.temp.readiness = .ready ∧
                (s.temp.hot = true ∨ s.temp.readiness ≠ .ready) then powering
            else s.live)) ∧
         t.fan = { s.fan with learn :=
           if s.fan.learn.isLearning = true ∧ ((s.temp.board.isValid = true ∧ t.temp.board.isValid = false) ∨
             (s.temp.air.isValid = true ∧ t.temp.air.isValid = false)) then .abandoned else s.fan.learn } ∧
         t.tables = s.tables ∧ t.flags = s.flags ∧ t.mgmt = s.mgmt ∧ t.store = s.store ∧ t.clock = s.clock ∧
         t.keypad = s.keypad ∧ t.keyUnit.records = s.keyUnit.records ∧ t.keyUnit.chords = s.keyUnit.chords)) ∧
  (∀ (s : State) (x : Sensor) (code : SensorCode),
     let old := s.temp.channel x
     let new := old.sampled (sensorCurve s x) code.toNat
     let u := { s with temp := s.temp.setChannel x new }
     sampleChannel x code s =
       (if old.isFaulted = false ∧ new.isFaulted = true then
         composeNotice 0xC3 ([byte x.code, 1] ++ beInt16 new.reported) (bump (faultCounter x) u)
       else if old.isFaulted = true ∧ new.isFaulted = false then
         composeNotice 0xC3 ([byte x.code, 2] ++ beInt16 new.reported) (bump (recoveryCounter x) u)
       else u)) ∧
  (∀ (s : State) (board glass air : SensorCode),
     let c := sampleChannel .air air (sampleChannel .glass glass (sampleChannel .board board s))
     let lost := (s.temp.board.isValid && !c.temp.board.isValid) || (s.temp.air.isValid && !c.temp.air.isValid)
     let d := if lost = true ∧ c.fan.learn.isLearning = true then
         bump Ctr.thermalLearnsAbandoned { c with fan := { c.fan with learn := .abandoned } }
       else c
     let e := if c.temp.air.isValid = true ∧ (c.temp.board.isValid = false ∨ c.temp.glass.isValid = false) then
         bump Ctr.thermalStandInSamples d
       else d
     sampleChannels board glass air s =
       (if coldFallback c = true ∧ coldFallback s = false then bump Ctr.thermalFallbackEntries e else e)) ∧
  (∀ s : State,
     let valid : Channel → Option Int := fun c => match c with
       | .valid f => some f
       | _ => none
     workingBoard s = (if s.temp.board.isValid = true then valid s.temp.board else valid s.temp.air) ∧
     workingGlass s = (if s.temp.glass.isValid = true then valid s.temp.glass else valid s.temp.air)) ∧
  (∀ s : State, evaluateHot s =
     (let withHot : Bool → State := fun hot => { s with temp := { s.temp with hot := hot } }
      match s.temp.hot, workingBoard s with
      | false, some b => if (settings s).shutdownTemp ≤ b then bump Ctr.thermalHotRaised (withHot true) else s
      | true, some b => if b < (settings s).resumeTemp then withHot false else s
      | true, none => bump Ctr.thermalHotClearedWithoutValue (withHot false)
      | false, none => s))

/-- R109, R110, R111: readiness outside cold fallback: NotReady rises when both working values meet their minimums,
Dwelling falls when one fails, Ready falls only below the hysteresis margin. R110, R112, R79: the dwell timer's
expiry in Dwelling makes readiness Ready, and liveness leaves COLD HOLD for POWERING if Hot is not raised; otherwise
only readiness changes. R108: in cold fallback readiness is decided from the fallback start alone. R101, R112: a
sampling event that is due leaves readiness as this evaluation of the sampled channels makes it, unless Hot cleared in
HOT HOLD starts the fallback again at that moment and moves liveness to COLD HOLD, or on to POWERING where readiness is
Ready (R92, R79), and readiness that becomes Ready lets COLD HOLD go on to POWERING. That the time since the fallback
start is measured on the millisecond base, modulo 2^32, is the model's choice (log 13), as is that a Dwelling which cold
fallback ends is no dwell abandoned (log 39). R108, R110, R111: an evaluation changes nothing but readiness, its dwell and
what it counts: a loss of Ready, a dwell abandoned, a grant in cold fallback. R124: host power coming on blocks the
heaters that are then not allowed. -/
def Obligations.ReadinessRule : Prop :=
  (∀ (s : State) (now : Instant) (b g : Int), workingBoard s = some b → workingGlass s = some g →
     let warm : Int → Prop := fun margin =>
       (settings s).bootMinTemp - margin ≤ b ∧ (settings s).glassMinTemp - margin ≤ g
     let after := (evaluateReadiness now s).temp
     (s.temp.readiness = .notReady → ¬warm 0 → after = s.temp) ∧
     (s.temp.readiness = .notReady → warm 0 → 0 < (settings s).readyDwell →
       after = { s.temp with readiness := .dwelling,
                             dwell := some ⟨now.ms, (settings s).readyDwell.toNat * 1000⟩ }) ∧
     (s.temp.readiness = .notReady → warm 0 → (settings s).readyDwell ≤ 0 →
       after = { s.temp with readiness := .ready, dwell := none }) ∧
     (s.temp.readiness = .dwelling → warm 0 → after = s.temp) ∧
     (s.temp.readiness = .dwelling → ¬warm 0 →
       after = { s.temp with readiness := .notReady, dwell := none }) ∧
     (s.temp.readiness = .ready → warm (settings s).readyHyst → after = s.temp) ∧
     (s.temp.readiness = .ready → ¬warm (settings s).readyHyst →
       after = { s.temp with readiness := .notReady, dwell := none })) ∧
  (∀ (s : State) (d : Timer), s.temp.readiness = .dwelling → s.temp.dwell = some d →
     d.length ≤ (s.clock.ms - d.start).toNat →
     ∃ t : State, exec .dwellExpiry s = .next t ∧
       t.temp = { s.temp with readiness := .ready, dwell := none } ∧
       (s.live.state = .coldHold → s.temp.hot = false →
         t.live = { s.live with
           state := .powering, enteredAt := s.clock.sec, bootTime := none,
           timer := some ⟨s.clock.ms, (settings s).powerSettle.toNat⟩ }) ∧
       PowerHandOver s t ∧ t.fan = s.fan ∧ t.exchanges = s.exchanges ∧ t.keyUnit = s.keyUnit ∧ t.tables = s.tables ∧
       (¬(s.live.state = .coldHold ∧ s.temp.hot = false) →
         t = { s with temp := { s.temp with readiness := .ready, dwell := none } })) ∧
  (∀ s : State, coldFallback s = true ↔ workingBoard s = none ∨ workingGlass s = none) ∧
  (∀ (s : State) (now : Instant), coldFallback s = true →
     let enough := ∃ f : Word, s.temp.fallbackStart = some f ∧
       (settings s).coldFallback.toNat * 60000 ≤ (now.ms - f).toNat
     (enough → (evaluateReadiness now s).temp = { s.temp with readiness := .ready, dwell := none }) ∧
     (¬enough → (evaluateReadiness now s).temp = { s.temp with readiness := .notReady, dwell := none })) ∧
  (∀ (s : State) (board glass air : SensorCode), 100 ≤ elapsed s.temp.lastSample s.clock.ms →
     let u := sampleChannels board glass air { s with temp := { s.temp with lastSample := s.temp.lastSample + 100 } }
     let v := (evaluateReadiness s.clock u).temp
     ∃ t : State, exec (.temperatureSample board glass air) s = .next t ∧
       t.temp = (if s.live.state = .hotHold ∧ s.temp.hot = true ∧ t.temp.hot = false then
           { v with
             hot := false, fallbackStart := some s.clock.ms
             readiness := if coldFallback u = true then .notReady else v.readiness
             dwell := if coldFallback u = true then none else v.dwell }
         else { v with hot := t.temp.hot }) ∧
       (s.live.state = .coldHold → t.temp.hot = false → (s.temp.hot = true ∨ s.temp.readiness ≠ .ready) →
         v.readiness = .ready → t.live.state = .powering) ∧
       (s.live.state = .hotHold → s.temp.hot = true → t.temp.hot = false →
         t.live = if t.temp.readiness = .ready then { s.live with
             state := .powering, enteredAt := s.clock.sec, bootTime := none,
             timer := some ⟨s.clock.ms, (settings s).powerSettle.toNat⟩ }
           else { s.live with state := .coldHold, enteredAt := s.clock.sec, timer := none })) ∧
  (∀ (s : State) (now : Instant), coldFallback s = true → s.temp.readiness = .dwelling →
     (¬∃ f : Word, s.temp.fallbackStart = some f ∧
       (settings s).coldFallback.toNat * 60000 ≤ (now.ms - f).toNat) →
     evaluateReadiness now s = { s with temp := { s.temp with readiness := .notReady, dwell := none } }) ∧
  (∀ (s : State) (now : Instant),
     let after := evaluateReadiness now s
     after = { s with temp := after.temp, counters := after.counters } ∧
     after.counters =
       (if coldFallback s = true then
         if s.temp.readiness ≠ .ready ∧ after.temp.readiness = .ready then bump Ctr.thermalFallbackGrants s else s
       else match s.temp.readiness, after.temp.readiness with
         | .ready, .notReady => bump Ctr.thermalReadinessLosses s
         | .dwelling, .notReady => bump Ctr.thermalDwellsAbandoned s
         | _, _ => s).counters)

/-! ### Heaters and fan -/

/-- R120, R121, R122: a channel's demand and its integrator afterwards. R119, R123: a demand event that is due holds
the shares of the allowed demands as the pending allocation and moves the integrators; outputs, current steps and
everything outside the heaters are unchanged. -/
def Obligations.DemandRule : Prop :=
  (∀ (s : State) (c : Heater),
     let i := (s.heat.channel c).integrator
     match heaterValue s c with
     | none => heaterDemand s c = (100, i)
     | some f =>
       let e := max (-1000) (min 1000 (heaterSetpoint (settings s) c - f))
       let raw := heaterKp (settings s) c * e + i
       heaterDemand s c = ((max 0 (min 100 (raw.tdiv 64))).toNat,
         if (s.heat.channel c).blocked = true ∨ s.heat.cutoffMarks = true ∨ (6400 ≤ raw ∧ 0 < e) ∨ (raw ≤ 0 ∧ e < 0)
         then i else max 0 (min 6400 (i + heaterKi (settings s) c * e)))) ∧
  (∀ s : State, 900 ≤ elapsed s.heat.periodStart s.clock.ms → s.heat.demandTaken = false →
     exec .demandEvent s = .next { s with heat := { s.heat with
       board := { s.heat.board with integrator := (heaterDemand s .board).2 }
       glass := { s.heat.glass with integrator := (heaterDemand s .glass).2 }
       pending := allocate
         (if heaterAllowed s .board = true then (heaterDemand s .board).1 else 0)
         (if heaterAllowed s .glass = true then (heaterDemand s .glass).1 else 0)
         (settings s).heatGap.toNat (decide ((settings s).heatPriority = 0))
       demandTaken := true } })

/-- R125: the table of on-steps, and what it guarantees for placement: the shares fit their gaps. R126: the board
heater is on in steps 0 to onB - 1 and the glass heater in steps 100 - g - onG to 99 - g, onB and onG steps of the
period where the shares fit. A spaced allocation never places both heaters in one step, leaves the last g steps off, and leaves at least g steps off
between the board heater's last step and the glass heater's first. -/
def Obligations.AllocationRule : Prop :=
  (∀ (dB dG g : Nat) (boardFirst : Bool),
     let a := allocate dB dG g boardFirst
     let avail := 100 - 2 * g
     a.g = g ∧ a.Spaced ∧
     (dB = 0 → dG = 0 → a.onB = 0 ∧ a.onG = 0) ∧
     (dB ≠ 0 → dG = 0 → a.onB = min dB (100 - g) ∧ a.onG = 0) ∧
     (dB = 0 → dG ≠ 0 → a.onB = 0 ∧ a.onG = min dG (100 - g)) ∧
     (dB ≠ 0 → dG ≠ 0 → dB + dG ≤ avail → a.onB = dB ∧ a.onG = dG) ∧
     (dB ≠ 0 → dG ≠ 0 → avail < dB + dG → boardFirst = true →
       a.onG = dG * avail / (dB + dG) ∧ a.onB + a.onG = avail) ∧
     (dB ≠ 0 → dG ≠ 0 → avail < dB + dG → boardFirst = false →
       a.onB = dB * avail / (dB + dG) ∧ a.onB + a.onG = avail)) ∧
  (∀ (a : Allocation) (n m : Nat), a.Spaced →
     (boardOnAt a n && glassOnAt a n) = false ∧
     (100 ≤ n + a.g → boardOnAt a n = false ∧ glassOnAt a n = false) ∧
     (boardOnAt a n = true → glassOnAt a m = true → n + a.g < m)) ∧
  (∀ (a : Allocation) (n : Nat),
     (boardOnAt a n = true ↔ n < a.onB) ∧
     (glassOnAt a n = true ↔ 100 - a.g - a.onG ≤ n ∧ n < 100 - a.g)) ∧
  (∀ a : Allocation, a.Spaced →
     (List.range 100).countP (boardOnAt a) = a.onB ∧ (List.range 100).countP (glassOnAt a) = a.onG)

/-- R119, R124, R127, R128, R129, R132: a boundary that is due installs the pending steps, none for a channel that
stays Blocked and none under CutOff marks that stay, begins step 0, and takes the window's pulses as the speed.
R119, R130, R131, R133, R136: the fan's part in order: the duty recomputed, the move between Off and Running, the
judgement of the new speed, the full-airflow clock and its refresh. That a fan which this boundary took out of Off is
not judged by it is the model's choice (log 12), as is one judged after LEARN AIRFLOW took it out in the window. -/
def Obligations.HeatBoundaryRule : Prop :=
  (∀ s : State, 1000 ≤ elapsed s.heat.periodStart s.clock.ms → ∃ t : State, exec .heatBoundary s = .next t ∧
    (let marks := s.heat.cutoffMarks && s.heat.cutoffLine
     let boardBlocked := s.heat.board.blocked && !heaterAllowed s .board
     let glassBlocked := s.heat.glass.blocked && !heaterAllowed s .glass
     t.heat.periodStart = s.heat.periodStart + 1000 ∧ t.heat.pending = s.heat.pending ∧
     t.heat.cutoffMarks = marks ∧ t.heat.board.blocked = boardBlocked ∧ t.heat.glass.blocked = glassBlocked ∧
     t.heat.current = ⟨if boardBlocked || marks then 0 else s.heat.pending.onB,
       if glassBlocked || marks then 0 else s.heat.pending.onG, s.heat.pending.g⟩ ∧
     t.heat.board.output = boardOnAt t.heat.current 0 ∧ t.heat.glass.output = glassOnAt t.heat.current 0) ∧
    t.fan.speed = min 65535 (s.fan.pulses * 30) ∧ t.fan.pulses = 0 ∧
    t.temp = s.temp ∧ t.tables = s.tables ∧ t.flags = s.flags ∧ t.live = s.live ∧ t.exchanges = s.exchanges) ∧
  (∀ s : State, 1000 ≤ elapsed s.heat.periodStart s.clock.ms →
    let duty := commandedDuty s
    let speed := min 65535 (s.fan.pulses * 30)
    let f : FanDrive := { s.fan with speed := speed, pulses := 0, commanded := duty.1, runningMark := duty.2 }
    let moved : FanDrive :=
      if s.fan.state = .off ∧ 0 < duty.1 then { f with state := .running, stallRun := 0 }
      else if s.fan.state ≠ .off ∧ s.fan.state ≠ .failed ∧ duty.1 = 0 then
        { f with state := .off, stallRun := 0, goodRun := 0, kicks := 0 }
      else f
    let good := decide ((settings s).stallRpm ≤ (speed : Int))
    ∃ u v t : State, exec .heatBoundary s = .next t ∧ u = { s with heat := t.heat, fan := moved } ∧
      v = (match moved.state with
        | .off => u
        | .running => if s.fan.state = .off then u else judgeRunning good u
        | .kicking phase => judgeKicking phase good u
        | .failed => judgeFailed good u) ∧
      (let full := v.fan.state = .running ∧ v.fan.commanded = 100
       let clock := if full then v.fan.airflowClock + 1 else 0
       let w := { v with fan := { v.fan with airflowClock := clock } }
       t = (if full ∧ 120 ≤ clock ∧ (clock - 120) % 10 = 0 then refreshClog w else w)))

/-- R126, R128, R129, R132: the outputs follow the step that runs, the line's two changes set and keep the marks,
and a tachometer pulse counts. That a cutoff command at the level already held changes nothing is the model's choice
(log 17). -/
def Obligations.HeaterLinesRule : Prop :=
  ∀ s : State,
    (let n := elapsed s.heat.periodStart s.clock.ms / 10
     n < 100 → exec .heatStep s = .next { s with heat := { s.heat with
       board := { s.heat.board with output := boardOnAt s.heat.current n }
       glass := { s.heat.glass with output := glassOnAt s.heat.current n } } }) ∧
    (s.heat.cutoffLine = false → exec .cutoffActive s = .next (bump Ctr.thermalCutoffActivations
      { s with heat := { s.heat with
        board := { s.heat.board with output := false }
        glass := { s.heat.glass with output := false }
        current := ⟨0, 0, s.heat.current.g⟩
        cutoffLine := true
        cutoffMarks := true } })) ∧
    (s.heat.cutoffLine = true → exec .cutoffActive s = .next s) ∧
    exec .cutoffRelease s = .next { s with heat := { s.heat with cutoffLine := false } } ∧
    exec .tachPulse s = .next { s with fan := { s.fan with pulses := s.fan.pulses + 1 } }

/-- R133, R134, R135: the fan's judgements: the fifth stalled boundary in Running starts a kick, five good ones end
Kicking or Failed, and the fifth stalled one in a watch phase kicks again or, after the third kick, fails the fan; any
other judgement moves the runs, and a kick phase lasts two boundaries. Each kick, failure and recovery from Failed is
counted, a failure composes the FAN notice of event 1 with its state code, speed and clog index, and a recovery moves to
Running, or to Off where nothing is commanded, with the three counts 0. R138: a fan that enters Kicking or Failed
abandons a learn; a learn whose 120 s have run writes the Board value minus the Air value, clamped, into both Settings
copies, clears the clog index and warning, and changes nothing else but its counter. R130, R131: the curve duty, the
running mark and the commanded duty. R136: a refresh of the clog index, its warning and the FAN notice. -/
def Obligations.FanRules : Prop :=
  (∀ (s : State) (phase : KickPhase),
     (s.fan.commanded ≠ 0 → s.fan.stallRun = 4 →
       (judgeRunning false s).fan.state = .kicking (.kick 2) ∧ (judgeRunning false s).fan.kicks = 1 ∧
       (judgeRunning false s).fan.stallRun = 0 ∧ fanOutput (judgeRunning false s).fan = 100) ∧
     ((judgeRunning true s).fan = { s.fan with stallRun := 0 }) ∧
     (s.fan.commanded ≠ 0 → 4 ≤ s.fan.goodRun →
       (judgeKicking phase true s).fan.state = .running ∧ (judgeKicking phase true s).fan.kicks = 0 ∧
       (judgeFailed true s).fan.state = .running ∧ (judgeFailed true s).fan.kicks = 0) ∧
     (4 ≤ s.fan.stallRun → s.fan.kicks < 3 →
       (judgeKicking .watch false s).fan.state = .kicking (.kick 2) ∧
       (judgeKicking .watch false s).fan.kicks = s.fan.kicks + 1) ∧
     (4 ≤ s.fan.stallRun → 3 ≤ s.fan.kicks →
       (judgeKicking .watch false s).fan.state = .failed ∧ fanOutput (judgeKicking .watch false s).fan = 100) ∧
     (s.fan.commanded = 0 → judgeRunning false s = s) ∧
     (s.fan.commanded ≠ 0 → s.fan.stallRun < 4 →
       judgeRunning false s = { s with fan := { s.fan with stallRun := s.fan.stallRun + 1 } }) ∧
     (s.fan.goodRun < 4 →
       judgeKicking phase true s = { s with fan := { s.fan with
         state := .kicking phase.next, goodRun := s.fan.goodRun + 1, stallRun := 0 } } ∧
       judgeFailed true s = { s with fan := { s.fan with goodRun := s.fan.goodRun + 1, stallRun := 0 } }) ∧
     ((s.fan.stallRun < 4 ∨ phase.next ≠ .watch) →
       judgeKicking phase false s = { s with fan := { s.fan with
         state := .kicking phase.next, stallRun := s.fan.stallRun + 1, goodRun := 0 } }) ∧
     judgeFailed false s = { s with fan := { s.fan with stallRun := s.fan.stallRun + 1, goodRun := 0 } } ∧
     KickPhase.next (.kick 2) = .kick 1 ∧ KickPhase.next (.kick 1) = .watch ∧ KickPhase.next .watch = .watch ∧
     (∀ l : Timer, s.fan.learn = .learning l →
       (s.fan.commanded ≠ 0 → s.fan.stallRun = 4 → (judgeRunning false s).fan.learn = .abandoned) ∧
       (4 ≤ s.fan.stallRun → 3 ≤ s.fan.kicks → (judgeKicking .watch false s).fan.learn = .abandoned)) ∧
     (let learnEnded : State → State := fun u =>
        if u.fan.learn.isLearning = true then
          bump Ctr.thermalLearnsAbandoned { u with fan := { u.fan with learn := .abandoned } }
        else u
      let kicked : Nat → State → State := fun n u =>
        bump Ctr.thermalFanKicks { u with fan := { u.fan with
          state := .kicking (.kick 2), stallRun := 0, kicks := n } }
      let recovered : State := { s with fan := { s.fan with
        state := if s.fan.commanded = 0 then .off else .running, stallRun := 0, goodRun := 0, kicks := 0 } }
      (s.fan.commanded ≠ 0 → 4 ≤ s.fan.stallRun → judgeRunning false s = kicked 1 (learnEnded s)) ∧
      (4 ≤ s.fan.stallRun → s.fan.kicks < 3 → judgeKicking .watch false s =
        kicked (s.fan.kicks + 1) { s with fan := { s.fan with goodRun := 0 } }) ∧
      (4 ≤ s.fan.stallRun → 3 ≤ s.fan.kicks → judgeKicking .watch false s =
        composeNotice 0xC4 ([1, 3] ++ be16 s.fan.speed ++ beInt16 (s.fan.clogIndex.getD (-32768)))
          (learnEnded (bump Ctr.thermalFanFailures { s with fan := { s.fan with
            state := .failed, stallRun := s.fan.stallRun + 1, goodRun := 0 } }))) ∧
      (4 ≤ s.fan.goodRun → judgeKicking phase true s = recovered ∧
        judgeFailed true s = bump Ctr.thermalFanRecoveries recovered))) ∧
  (∀ (s : State) (l : Timer) (b a : Int), s.fan.learn = .learning l → l.length ≤ (s.clock.ms - l.start).toNat →
     s.temp.board = .valid b → s.temp.air = .valid a →
     exec .learnComplete s = .next (bump Ctr.thermalLearnsCompleted { s with
       tables := { s.tables with settings :=
         ⟨(s.tables.settings.live.set 47 (max (-1000) (min 1000 (b - a)))).set 48 1,
          (s.tables.settings.staging.set 47 (max (-1000) (min 1000 (b - a)))).set 48 1⟩ }
       fan := { s.fan with clogIndex := some 0, clogWarning := false, learn := .idle } })) ∧
  (∀ (t : SettingsTable) (x : Int) (mark : Bool),
     curveDuty t none mark = (100, true) ∧
     (t.fanFull ≤ x → curveDuty t (some x) mark = (100, true)) ∧
     (t.fanStart ≤ x → x < t.fanFull → curveDuty t (some x) mark =
       ((t.fanMin + (100 - t.fanMin) * (x - t.fanStart) / (t.fanFull - t.fanStart)).toNat, true)) ∧
     (x < t.fanStart → x < t.fanFull → t.fanStart - 20 ≤ x →
       curveDuty t (some x) mark = if mark = true then (t.fanMin.toNat, true) else (0, false)) ∧
     (x < t.fanStart - 20 → x < t.fanFull → curveDuty t (some x) mark = (0, false))) ∧
  (∀ s : State,
     let curve := curveDuty (settings s) (workingBoard s) s.fan.runningMark
     let cold : Nat := match workingBoard s with
       | some x => if (settings s).fanStart ≤ x then curve.1 else 0
       | none => 0
     commandedDuty s =
       (if s.fan.learn.isLearning = true then (100, curve.2)
       else if s.live.state = .coldHold then (cold, curve.2 && decide (cold ≠ 0))
       else curve)) ∧
  (∀ s : State,
     ((settings s).baselineLearned = 0 ∨ s.temp.board.isValid = false ∨ s.temp.air.isValid = false →
       refreshClog s = s) ∧
     (∀ b a : Int, (settings s).baselineLearned ≠ 0 → s.temp.board = .valid b → s.temp.air = .valid a →
       let index := max (-1000) (min 1000 (b - a - (settings s).baselineDelta))
       refreshClog s =
         (if index ≤ (settings s).clogLimit then
           { s with fan := { s.fan with clogIndex := some index, clogWarning := false } }
         else if s.fan.clogWarning = true then { s with fan := { s.fan with clogIndex := some index } }
         else composeNotice 0xC4 ([2, byte s.fan.state.code] ++ be16 s.fan.speed ++ beInt16 index)
           (bump Ctr.thermalClogWarnings
             { s with fan := { s.fan with clogIndex := some index, clogWarning := true } }))))

/-! ### Keypad, key events and chords -/

/-- R148: a key completes a rectangle exactly when another row and another column have all three further corners
among the counted keys. R146, R147, R150, R151, R152: one key on its own reading, where no rectangle is completed.
R148, R149: a key that completes one, among the keys Down before the sample as it is first read pressed or with those
that meet the press threshold in it as it reaches the threshold itself, becomes Ambiguous and no press is reported.
-/
def Obligations.KeyReadingRule : Prop :=
  (∀ (corner : KeyPos → Bool) (r c : Nat) (hp : r * 8 + c < 48), c < 8 →
     (completesRectangle corner ⟨r * 8 + c, hp⟩ = true ↔
       ∃ (r' c' : Nat) (h1 : r * 8 + c' < 48) (h2 : r' * 8 + c < 48) (h3 : r' * 8 + c' < 48),
         c' < 8 ∧ r' ≠ r ∧ c' ≠ c ∧
         corner ⟨r * 8 + c', h1⟩ = true ∧ corner ⟨r' * 8 + c, h2⟩ = true ∧ corner ⟨r' * 8 + c', h3⟩ = true)) ∧
  (∀ (v : SampleView) (p : KeyPos),
     (completesRectangle (downBefore v.keys) p = false →
       completesRectangle (pressCorner v.keys v.raw v.press) p = false →
       (v.keys[p] = .up → readPressed v p =
         if v.press ≤ 1 then (.down v.now, .press) else (.pressing 1, .nothing)) ∧
       (∀ n : Nat, v.keys[p] = .pressing n → readPressed v p =
         if v.press ≤ n + 1 then (.down v.now, .press) else (.pressing (n + 1), .nothing))) ∧
     (∀ pressTime : Word, (v.keys[p] = .down pressTime ∨ ∃ n : Nat, v.keys[p] = .releasing n pressTime) →
       readPressed v p =
         if v.stuckLimit ≠ 0 ∧ v.stuckLimit < (v.now - pressTime).toNat then (.stuck 0, .synthesizedRelease)
         else (.down pressTime, .nothing)) ∧
     (v.keys[p] = .ambiguous → readPressed v p = (.ambiguous, .nothing) ∧ readReleased v p = (.up, .nothing)) ∧
     (v.keys[p] = .up → readReleased v p = (.up, .nothing)) ∧
     (∀ n : Nat, v.keys[p] = .pressing n → readReleased v p = (.up, .shortPress)) ∧
     (∀ pressTime : Word, v.keys[p] = .down pressTime → readReleased v p =
       if v.release ≤ 1 then (.up, .release) else (.releasing 1 pressTime, .nothing)) ∧
     (∀ (n : Nat) (pressTime : Word), v.keys[p] = .releasing n pressTime → readReleased v p =
       if v.release ≤ n + 1 then (.up, .release) else (.releasing (n + 1) pressTime, .nothing)) ∧
     (∀ n : Nat, v.keys[p] = .stuck n → readPressed v p = (.stuck 0, .nothing) ∧ readReleased v p =
       if v.release ≤ n + 1 then (.up, .recovery) else (.stuck (n + 1), .nothing))) ∧
  (∀ (v : SampleView) (p : KeyPos),
     (v.keys[p] = .up → completesRectangle (downBefore v.keys) p = true → readPressed v p = (.ambiguous, .ghost)) ∧
     (∀ n : Nat, (v.keys[p] = .pressing n ∨
         (v.keys[p] = .up ∧ n = 0 ∧ completesRectangle (downBefore v.keys) p = false)) →
       (n + 1 < v.press → readPressed v p = (.pressing (n + 1), .nothing)) ∧
       (v.press ≤ n + 1 → completesRectangle (pressCorner v.keys v.raw v.press) p = true →
         readPressed v p = (.ambiguous, .ghost))) ∧
     (downBefore v.keys p = true ↔ ∃ pressTime : Word, v.keys[p] = .down pressTime) ∧
     (pressCorner v.keys v.raw v.press p = true ↔ downBefore v.keys p = true ∨ (v.raw.getLsbD p = true ∧
       ((v.keys[p] = .up ∧ completesRectangle (downBefore v.keys) p = false ∧ v.press ≤ 1) ∨
         ∃ n : Nat, v.keys[p] = .pressing n ∧ v.press ≤ n + 1))))

/-- R143, R145, R153, R154: a sample event that is due: a Normal keypad with fewer than floodCount pressed positions
handles each key on its own reading, one with floodCount or more is Flooded with every key Up, and a Flooded one
moves no key. R153, R154, R155: a flood withdraws every press that stands reported, and ends with the first sample at
which the quiet run has lasted floodClear. R146, R151, R152, R155: what each key's happening counts and notices, and the
outcomes in ascending order of position handed to the Key Event Unit, the KEY notices and then the chords after them.
R143, R144, R145: a key is read in the debounce set that the working Glass value chooses, with that set's thresholds.
That an event which is not due changes nothing is the model's choice (log 22), as are the order of what is counted and
noticed within a sample (log 11) and the moment of the KEY notices (log 10). -/
def Obligations.KeypadSampleRule : Prop :=
  (∀ (s : State) (raw : BitVec 48),
    (elapsed s.keypad.lastSample s.clock.ms < s.keypad.interval → exec (.keypadSample raw) s = .next s) ∧
    (s.keypad.interval ≤ elapsed s.keypad.lastSample s.clock.ms →
      ∃ t : State, exec (.keypadSample raw) s = .next t ∧
        (if s.keypad.flooded = true then t.keypad.keys = s.keypad.keys
         else if (settings s).floodCount ≤ (pressedCount raw : Int) then
           t.keypad.flooded = true ∧ ∀ k : KeyPos, t.keypad.keys[k] = .up
         else t.keypad.flooded = false ∧
           ∀ k : KeyPos, t.keypad.keys[k] = (sampleKey (sampleView (chooseSet s) raw s) k).1) ∧
        t.keypad.lastSet = some (chooseSet s) ∧ t.keypad.interval = (settings s).scanInterval.toNat ∧
        t.live = s.live ∧ t.tables = s.tables ∧ t.temp = s.temp ∧ t.heat = s.heat ∧ t.flags = s.flags ∧
        t.exchanges = s.exchanges ∧ t.fieldPort = s.fieldPort)) ∧
  (∀ (s : State) (raw : BitVec 48), s.keypad.interval ≤ elapsed s.keypad.lastSample s.clock.ms →
    let flood := s.keypad.flooded = false ∧ (settings s).floodCount ≤ (pressedCount raw : Int)
    let start := s.keypad.quietStart.getD s.clock.ms
    let happening : KeyPos → KeyHappening := fun p => (sampleKey (sampleView (chooseSet s) raw s) p).2
    let outcomes : List KeyOutcome :=
      if s.keypad.flooded = true then []
      else if flood then
        ((List.finRange 48).filter fun p => s.keypad.keys[p].isHeld).map fun p => .release p true
      else (List.finRange 48).filterMap fun p => (happening p).outcome p
    ∃ t : State, exec (.keypadSample raw) s = .next t ∧
      (let noted := { s with keypad := t.keypad }
       let counted := if s.keypad.lastSet = none ∨ s.keypad.lastSet = some (chooseSet s) then noted
         else bump Ctr.keysDebounceSetSwitches noted
       let scanned :=
         if s.keypad.flooded = true then counted
         else if flood then bumpBy Ctr.keysSynthesizedReleases outcomes.length (bump Ctr.keysFloods counted)
         else (List.finRange 48).foldl (fun u p => reportHappening p (happening p) u) counted
       t = (List.finRange 8).foldl (updateChord s.clock)
         (composeKeyNotices (outcomes.foldl (takeOutcome s.clock) scanned))) ∧
      (s.keypad.flooded = true → raw ≠ 0 → t.keypad.flooded = true ∧ t.keypad.quietStart = none) ∧
      (s.keypad.flooded = true → raw = 0 → (settings s).floodClear.toNat ≤ elapsed start s.clock.ms →
        t.keypad.flooded = false ∧ t.keypad.quietStart = none) ∧
      (s.keypad.flooded = true → raw = 0 → elapsed start s.clock.ms < (settings s).floodClear.toNat →
        t.keypad.flooded = true ∧ t.keypad.quietStart = some start) ∧
      (flood → t.keypad.quietStart = none)) ∧
  (∀ (s : State) (p : KeyPos),
    (∀ h ∈ [KeyHappening.nothing, .press, .release], reportHappening p h s = s) ∧
    reportHappening p .shortPress s = bump Ctr.keysShortPresses s ∧
    reportHappening p .ghost s = bump Ctr.keysGhostKeys s ∧
    reportHappening p .synthesizedRelease s = composeNotice 0xC5 [1, byte p] (bump Ctr.keysStuckKeys s) ∧
    reportHappening p .recovery s = composeNotice 0xC5 [2, byte p] (bump Ctr.keysStuckRecoveries s) ∧
    (∀ h ∈ [KeyHappening.nothing, .shortPress, .ghost, .recovery], h.outcome p = none) ∧
    KeyHappening.press.outcome p = some (.press p) ∧ KeyHappening.release.outcome p = some (.release p false) ∧
    KeyHappening.synthesizedRelease.outcome p = some (.release p true)) ∧
  (∀ (s : State) (raw : BitVec 48),
    let v := sampleView (chooseSet s) raw s
    (∀ p : KeyPos, sampleKey v p = if raw.getLsbD p = true then readPressed v p else readReleased v p) ∧
    v.keys = s.keypad.keys ∧ v.raw = raw ∧ v.now = s.clock.ms ∧
    v.stuckLimit = (settings s).stuckTime.toNat * 1000 ∧
    (∀ g : Int, workingGlass s = some g → (settings s).keyColdTemp ≤ g → chooseSet s = .normal ∧
      v.press = (settings s).pressCount.toNat ∧ v.release = (settings s).releaseCount.toNat) ∧
    ((∀ g : Int, workingGlass s = some g → g < (settings s).keyColdTemp) → chooseSet s = .cold ∧
      v.press = (settings s).coldPressCount.toNat ∧ v.release = (settings s).coldReleaseCount.toNat))

/-- R165, R166, R169, R69: an event goes to the Key Event Queue while the host is up, a field-relevant Press to the
Field Key List while it is not, and every other event is discarded and counted. R163, R164: the repeat timer of a
reported key: one Repeat event with the remembered code and the time's stamp is delivered, and the timer starts
again for repeatPeriod. R161, R162: a Press outcome of a key whose code is not 0 and whose condition is true is recorded
and delivered as an event, with a repeat timer where its entry repeats, and counted as not reported otherwise; a Release
outcome of a recorded key delivers its Release event and ends the record. -/
def Obligations.KeyDeliveryRule : Prop :=
  (∀ (s : State) (e : KeyEvent) (fieldRelevant : Bool) (now : Instant),
     (hostUp s = true → s.keyUnit.queue.length < 16 →
       deliver e fieldRelevant now s = { s with keyUnit := { s.keyUnit with
         queue := s.keyUnit.queue ++ [{ e with lost := e.lost || s.keyUnit.lossPending }], lossPending := false } }) ∧
     (hostUp s = true → 16 ≤ s.keyUnit.queue.length →
       deliver e fieldRelevant now s =
         bump Ctr.keysQueueLosses { s with keyUnit := { s.keyUnit with lossPending := true } }) ∧
     (hostUp s = false → e.edge = .press → fieldRelevant = true → s.keyList.events.length < 8 →
       deliver e fieldRelevant now s = { s with keyList := { s.keyList with
         events := s.keyList.events ++ [⟨e.code, now.sec, .pending⟩] } }) ∧
     (hostUp s = false → e.edge = .press → fieldRelevant = true → 8 ≤ s.keyList.events.length →
       deliver e fieldRelevant now s =
         bump Ctr.proxyKeyListOverflows { s with keyList := { s.keyList with overflow := true } }) ∧
     (hostUp s = false → (e.edge ≠ .press ∨ fieldRelevant = false) →
       deliver e fieldRelevant now s = bump Ctr.keysEventsDiscardedHostDown s)) ∧
  (∀ (s : State) (k : KeyPos) (r : KeyRecord) (d : Timer), s.keyUnit.records[k] = some r → r.rep = true →
     r.timer = some d → d.length ≤ (s.clock.ms - d.start).toNat →
     exec (.repeatExpiry k) s = .next (composeKeyNotices
       (deliver ⟨r.code, .rep, false, s.clock.ms.setWidth 16, false⟩ false s.clock
         (bump Ctr.keysRepeatEvents { s with keyUnit := { s.keyUnit with
           records := s.keyUnit.records.set k
             (some { r with timer := some ⟨s.clock.ms, (settings s).repeatPeriod.toNat⟩ }) } })))) ∧
  (∀ (s : State) (p : KeyPos) (now : Instant),
     let e := s.tables.keyMap.live[p]
     let recorded : Option KeyRecord → State := fun r =>
       { s with keyUnit := { s.keyUnit with records := s.keyUnit.records.set p r } }
     takeOutcome now s (.press p) =
       (if e.code ≠ 0 ∧ e.condition.holds s = true then
         deliver ⟨e.code, .press, false, now.ms.setWidth 16, false⟩ e.fieldRelevant now
           (bump Ctr.keysPressEvents (recorded (some ⟨e.code, e.rep,
             if e.rep = true then some ⟨now.ms, (settings s).repeatDelay.toNat⟩ else none⟩)))
       else bump Ctr.keysPressesNotReported s) ∧
     (∀ synthesized : Bool, takeOutcome now s (.release p synthesized) =
       (match s.keyUnit.records[p] with
         | none => s
         | some r => deliver ⟨r.code, .release, synthesized, now.ms.setWidth 16, false⟩ false now
           (bump Ctr.keysReleaseEvents (recorded none)))))

/-- R171, R172: a chord whose hold has run is Fired: its CHORD notice comes first, then, if its condition is true,
its action is counted and handed over, and otherwise the refusal is counted. R170, R171: a chord after a sample: an
Idle one whose members are all Down or Releasing starts its hold, one whose members are not returns to Idle, counted as
abandoned from Holding, and an entry with valid no is Idle, uncounted by the model's choice (log 40). -/
def Obligations.ChordFireRule : Prop :=
  (∀ (s : State) (k : ChordId) (hold : Timer), s.keyUnit.chords[k] = .holding hold →
    hold.length ≤ (s.clock.ms - hold.start).toNat →
    let e := s.tables.chord.live[k]
    let noticed := composeNotice 0xC6 [byte k, byte e.action.code, byte (bit (e.condition.holds s))]
      { s with keyUnit := { s.keyUnit with chords := s.keyUnit.chords.set k .fired } }
    exec (.chordFire k) s = .next
      (if e.condition.holds s = false then bump Ctr.keysChordsRefused noticed
      else
        let u := bump Ctr.keysChordActionsTaken noticed
        match e.action with
        | .restartHost | .powerCycleHost =>
          if hostPowerEnable s = true then
            uncountedRestart .operatorChord (e.action == .powerCycleHost) s.clock u
          else bump Ctr.livenessIgnoredOperatorRequests u
        | .releaseHost =>
          if s.live.state = .off ∨ s.live.state = .latched then releaseHost s.clock u
          else bump Ctr.livenessIgnoredOperatorRequests u
        | .grantPermit =>
          { u with mgmt := { u.mgmt with
            permit := some ⟨s.clock.ms, (settings s).permitTime.toNat * 60000⟩ } }
        | .flagPattern => { u with flags := applyPattern e.pattern u.flags }
        | .noticeOnly => u)) ∧
  (∀ (s : State) (k : ChordId) (now : Instant),
    let e := s.tables.chord.live[k]
    let held := ∀ p ∈ e.first :: e.second :: e.third.toList,
      (∃ since : Word, s.keypad.keys[p] = .down since) ∨
        ∃ (n : Nat) (since : Word), s.keypad.keys[p] = .releasing n since
    let into : ChordState → State := fun x =>
      { s with keyUnit := { s.keyUnit with chords := s.keyUnit.chords.set k x } }
    (e.valid = false → updateChord now s k = into .idle) ∧
    (e.valid = true → held → updateChord now s k =
      if s.keyUnit.chords[k] = .idle then into (.holding ⟨now.ms, e.holdTime⟩) else s) ∧
    (e.valid = true → ¬held →
      (∀ hold : Timer, s.keyUnit.chords[k] = .holding hold →
        updateChord now s k = bump Ctr.keysChordsAbandoned (into .idle)) ∧
      (s.keyUnit.chords[k] = .fired → updateChord now s k = into .idle) ∧
      (s.keyUnit.chords[k] = .idle → updateChord now s k = s)))

/-- R90, R94, R96: an uncounted restart: the state, its timer and the record; budget and failed-restart count are
unchanged, and what leaving HostUp does (R57, R168; the order of expiry is the model's choice, log 33). R78, R79, R108: a
release from OFF or LATCHED: COLD HOLD with the fallback start at that moment, or
POWERING at once when readiness stays Ready and Hot is not raised; from LATCHED the budget and the failed-restart
count are cleared, and the Restart Log is kept; host power coming on blocks the heaters that are then not allowed
(R124). That a restart which finds RESETTING enters it again, its entry time
that moment, is the model's choice (log 34). -/
def Obligations.RestartAndReleaseRule : Prop :=
  (∀ (s : State) (cause : RestartCause) (cycle : Bool) (now : Instant), hostPowerEnable s = true →
     ∃ t : State, uncountedRestart cause cycle now s = t ∧
       t.live = { s.live with
         state := if cycle = true then .cycling else .resetting
         enteredAt := now.sec
         timer := some (if cycle = true then ⟨now.ms, (settings s).cycleOff.toNat * 1000⟩
           else ⟨now.ms, (settings s).resetPulse.toNat⟩) } ∧
       t.log = s.log.append ⟨s.log.nextSeq, cause, if cycle = true then .powerCycle else .resetPulse, now.sec,
         uptimeAt s.live now, loggedBoardTemp s, s.live.lateReplies, false⟩ ∧
       (hostUp s = true → LeavesHostUp s t) ∧ HostUpHandOver s t ∧
       t.temp = s.temp ∧ t.heat = s.heat ∧ t.tables = s.tables ∧ t.flags = s.flags ∧ t.hostPort = s.hostPort) ∧
  (∀ (s : State) (now : Instant), s.live.state = .off ∨ s.live.state = .latched →
     ∃ t : State, releaseHost now s = t ∧
       t.temp.fallbackStart = some now.ms ∧ t.log = s.log ∧ PowerHandOver s t ∧ HostUpHandOver s t ∧
       t.fan = s.fan ∧ t.tables = s.tables ∧
       t.live.budget = (if s.live.state = .latched then [] else s.live.budget) ∧
       t.live.failedRestarts = (if s.live.state = .latched then 0 else s.live.failedRestarts) ∧
       t.live.state =
         (if s.temp.readiness = .ready ∧ coldFallback s = false ∧ s.temp.hot = false then .powering else .coldHold))

/-! ### Management -/

/-- R177, R18, R19: a management reply goes into its command's buffer and joins the queue of the port of arrival
with the result first and the data after it; a full queue drops it, counts it and frees the buffer. -/
def Obligations.ManagementReplyRule : Prop :=
  ∀ (s : State) (code : Nat) (c : Command) (r : Result) (data : List Byte),
    (c.port = .host → s.hostPort.queue.length < 16 → replyTo code c r data s = { s with
      pool := s.pool.set c.buffer { s.pool[c.buffer] with
        state := .queued, bytes := frameBytes 255 1 (byte code) c.tag (byte r.code :: data) }
      hostPort := { s.hostPort with queue := s.hostPort.queue ++ [c.buffer] } }) ∧
    (c.port = .field → s.fieldPort.queue.length < 16 → replyTo code c r data s = { s with
      pool := s.pool.set c.buffer { s.pool[c.buffer] with
        state := .queued, bytes := frameBytes (mgmtStation s) 1 (byte code) c.tag (byte r.code :: data) }
      fieldPort := { s.fieldPort with queue := s.fieldPort.queue ++ [.buffer c.buffer] } }) ∧
    ((c.port = .host ∧ 16 ≤ s.hostPort.queue.length ∨ c.port = .field ∧ 16 ≤ s.fieldPort.queue.length) →
      replyTo code c r data s = releaseBuffer c.buffer (bump (Ctr.droppedManagementReplies c.port) s))

/-- R178: the Field Link column: FEED, HOST POWER OFF, FREEZE and SUPERVISOR RESET are NoPermit whatever the state,
and the commands that need Field Permit are NoPermit without it; nothing but the reply comes of them. R178, R179:
while Frozen is set, the six commands that it bars are answered Frozen and do nothing else. -/
def Obligations.PermissionRule : Prop :=
  (∀ (s s' : State) (c : Command),
     (∀ p ∈ [(0x08, Instr.feed .field), (0x0A, .hostPowerOff .field), (0x10, .freeze .field),
         (0x11, .supervisorReset .field)],
       Takes p.1 .field c s s' → exec p.2 s = .next (replyTo p.1 c .noPermit [] s')) ∧
     (s.mgmt.permit = none →
       ∀ p ∈ [(0x06, Instr.writeProxy .field), (0x07, .setFlags .field), (0x09, .hostRestart .field),
           (0x0B, .hostRelease .field)],
         Takes p.1 .field c s s' → exec p.2 s = .next (replyTo p.1 c .noPermit [] s')) ∧
     (s.mgmt.permit = none → s.mgmt.frozen = false →
       ∀ p ∈ [(0x03, Instr.writeEntry .field), (0x04, .commit .field), (0x05, .discard .field),
           (0x0D, .clearLog .field), (0x0F, .learnAirflow .field)],
         Takes p.1 .field c s s' → exec p.2 s = .next (replyTo p.1 c .noPermit [] s')) ∧
     (s.mgmt.permit = none → c.args[1]? ≠ some 0 → Takes 0x0E .field c s s' →
       exec (.readCounters .field) s = .next (replyTo 0x0E c .noPermit [] s'))) ∧
  (∀ (s s' : State) (q : Port) (c : Command), s.mgmt.frozen = true →
     (∀ p ∈ [(0x03, Instr.writeEntry q), (0x04, .commit q), (0x05, .discard q), (0x0D, .clearLog q),
         (0x0F, .learnAirflow q)],
       Takes p.1 q c s s' → exec p.2 s = .next (replyTo p.1 c .frozen [] s')) ∧
     (Takes 0x10 .host c s s' → exec (.freeze .host) s = .next (replyTo 0x10 c .frozen [] s')))

/-- R179: Frozen, once set, is cleared by no command but a power-on or reset-line reset. -/
def Obligations.FrozenStaysUntilReset : Prop :=
  ∀ (c : Instr) (s t : State), exec c s = .next t → c ≠ .powerOnReset → c ≠ .resetLineReset →
    s.mgmt.frozen = true → t.mgmt.frozen = true

/-- R181, R183, R95, R182: the reading commands answer Done with what they read, and change nothing else but the counters
that READ COUNTERS returns with clear 1, set to 0, with the hit counters for the Routing group. R177, R183, R182, R181,
R95: a wrong argument length, table, index, copy, part, record, group, clear or first counter is BadArgument. Section
9.8: part 0 of the Status Record is 20 bytes and part 1 is 19, every byte in its place; the layouts of the entries and of a
log record, with every code of their lists, a value of several bytes high byte first and a signed one in two's complement
(R177). That the seconds in the state are the difference of the two counts is the model's choice (log 38), and so is
that the cold-set bit is 0 before the first keypad sample (log 35). -/
def Obligations.ReadingCommandsRule : Prop :=
  (∀ (s s' : State) (q : Port) (c : Command),
     (Takes 0x01 q c s s' → c.args = [0] →
       exec (.status q) s = .next (replyTo 0x01 c .done (statusPart0 c.arrival s') s')) ∧
     (Takes 0x01 q c s s' → c.args = [1] →
       exec (.status q) s = .next (replyTo 0x01 c .done (statusPart1 c.arrival s') s')) ∧
     (∀ i : Fin 61, Takes 0x02 q c s s' → c.args = [6, byte i, 0] →
       exec (.readEntry q) s = .next (replyTo 0x02 c .done (beInt32 s.tables.settings.live[i]) s')) ∧
     (∀ i : RouteId, Takes 0x02 q c s s' → c.args = [1, byte i, 0] →
       exec (.readEntry q) s = .next (replyTo 0x02 c .done
         (s.tables.route.live[i].encode ++ be16 s.tables.hits[i].toNat) s')) ∧
     (∀ (i : Nat) (r : LogRecord), i < s.log.records.length → s.log.records.reverse[i]? = some r → i < 256 →
       Takes 0x0C q c s s' → c.args = [byte i] →
       exec (.readLog q) s = .next (replyTo 0x0C c .done (r.encode ++ [byte s.log.records.length]) s')) ∧
     (∀ first : Fin 25, Takes 0x0E q c s s' → c.args = [1, 0, byte first] →
       exec (.readCounters q) s = .next (replyTo 0x0E c .done
         ([25, byte first, byte (min 14 (25 - first))] ++
           ((s.counters.links.toList.drop first).take (min 14 (25 - first))).flatMap fun x => be16 x.toNat) s'))) ∧
  (∀ (s : State) (now : Instant),
     (statusPart0 now s).length = 20 ∧ (statusPart1 now s).length = 19 ∧
     (statusPart0 now s)[0]? = some (byte s.live.state.code) ∧
     (statusPart0 now s)[5]? = some (byte s.live.budget.length) ∧
     (statusPart0 now s)[17]? = some (byte s.heat.current.onB) ∧
     (statusPart0 now s)[18]? = some (byte s.heat.current.onG) ∧
     (statusPart1 now s)[0]? = some (byte (fanOutput s.fan)) ∧
     (statusPart1 now s)[9]? = some s.flags ∧
     (statusPart1 now s)[12]? = some (s.mgmt.defaultsInUse.setWidth 8) ∧
     (statusPart1 now s)[16]? = some (byte (freeCount s)) ∧
     (statusPart1 now s)[18]? = some (byte s.keyList.events.length)) ∧
  (∀ (s s' : State) (q : Port) (c : Command) (k : Bool), Takes 0x02 q c s s' →
     let copy : Byte := byte (bit k)
     (∀ i : RouteId, c.args = [1, byte i, copy] → exec (.readEntry q) s = .next (replyTo 0x02 c .done
       ((s.tables.route.copy k)[i].encode ++ be16 (if k = true then 0 else s.tables.hits[i].toNat)) s')) ∧
     (∀ i : KeyPos, c.args = [2, byte i, copy] → exec (.readEntry q) s =
       .next (replyTo 0x02 c .done (s.tables.keyMap.copy k)[i].encode s')) ∧
     (∀ i : ChordId, c.args = [3, byte i, copy] → exec (.readEntry q) s =
       .next (replyTo 0x02 c .done (s.tables.chord.copy k)[i].encode s')) ∧
     (∀ i : Fin 17, c.args = [4, byte i, copy] → exec (.readEntry q) s =
       .next (replyTo 0x02 c .done (beInt16 (s.tables.curveA.copy k)[i]) s')) ∧
     (∀ i : Fin 17, c.args = [5, byte i, copy] → exec (.readEntry q) s =
       .next (replyTo 0x02 c .done (beInt16 (s.tables.curveB.copy k)[i]) s')) ∧
     (∀ i : Fin 61, c.args = [6, byte i, copy] → exec (.readEntry q) s =
       .next (replyTo 0x02 c .done (beInt32 (s.tables.settings.copy k)[i]) s')) ∧
     (∀ i : ProxyId, c.args = [7, byte i, copy] → exec (.readEntry q) s = .next (replyTo 0x02 c .done
       ((s.tables.proxy.copy k)[i].encode ++ if k = true then List.replicate 13 0 else s.proxy[i].encode) s'))) ∧
  (∀ (s s' : State) (q : Port) (c : Command) (group clear first : Byte) (cs : List Counter),
     Takes 0x0E q c s s' → (Permitted q s ∨ clear = 0) → c.args = [group, clear, first] →
     s.counters.group group.toNat = some cs → clear.toNat ≤ 1 → first.toNat < cs.length →
     let k := min 14 (cs.length - first.toNat)
     ∃ u : State, exec (.readCounters q) s = .next (replyTo 0x0E c .done
         ([byte cs.length, first, byte k] ++ ((cs.drop first.toNat).take k).flatMap fun x => be16 x.toNat) u) ∧
       (clear = 0 → u = s') ∧
       (clear = 1 →
         (∀ g : Nat, u.counters.group g = if g = group.toNat then
           some (cs.mapIdx fun i x => if first.toNat ≤ i ∧ i < first.toNat + k then 0 else x)
           else s.counters.group g) ∧
         u.tables = { s.tables with hits := if group = 2 then Vector.replicate 32 0 else s.tables.hits } ∧
         u = { s' with counters := u.counters, tables := u.tables })) ∧
  (∀ (s : State) (g : Nat), s.counters.group g = ([s.counters.links.toList, s.counters.routing.toList,
     s.counters.exchanges.toList, s.counters.proxy.toList, s.counters.keys.toList, s.counters.thermal.toList,
     s.counters.liveness.toList] : List (List Counter))[g - 1]?.filter fun _ => 1 ≤ g) ∧
  (∀ (s s' : State) (q : Port) (c : Command), Permitted q s → s.mgmt.frozen = false →
     (∀ p ∈ [(0x01, 1, Instr.status q), (0x02, 3, .readEntry q), (0x04, 2, .commit q), (0x05, 1, .discard q),
         (0x07, 2, .setFlags q), (0x09, 1, .hostRestart q), (0x0B, 0, .hostRelease q), (0x0C, 1, .readLog q),
         (0x0D, 0, .clearLog q), (0x0E, 3, .readCounters q), (0x0F, 0, .learnAirflow q)],
       Takes p.1 q c s s' → c.args.length ≠ p.2.1 → exec p.2.2 s = .next (replyTo p.1 c .badArgument [] s')) ∧
     (q = .host → ∀ p ∈ [(0x08, 0, Instr.feed .host), (0x0A, 2, .hostPowerOff .host), (0x10, 0, .freeze .host),
         (0x11, 0, .supervisorReset .host)],
       Takes p.1 q c s s' → c.args.length ≠ p.2.1 → exec p.2.2 s = .next (replyTo p.1 c .badArgument [] s'))) ∧
  (∀ (s s' : State) (q : Port) (c : Command),
     (∀ part : Byte, Takes 0x01 q c s s' → c.args = [part] → 1 < part.toNat →
       exec (.status q) s = .next (replyTo 0x01 c .badArgument [] s')) ∧
     (∀ table index copy : Byte, Takes 0x02 q c s s' → c.args = [table, index, copy] →
       (1 < copy.toNat ∨ entryCount table.toNat ≤ index.toNat) →
       exec (.readEntry q) s = .next (replyTo 0x02 c .badArgument [] s')) ∧
     (∀ i : Byte, Takes 0x0C q c s s' → c.args = [i] → s.log.records.length ≤ i.toNat →
       exec (.readLog q) s = .next (replyTo 0x0C c .badArgument [] s')) ∧
     (∀ group clear first : Byte, Takes 0x0E q c s s' → (Permitted q s ∨ clear = 0) →
       c.args = [group, clear, first] →
       (s.counters.group group.toNat = none ∨ 1 < clear.toNat ∨
         ∃ cs : List Counter, s.counters.group group.toNat = some cs ∧ cs.length ≤ first.toNat) →
       exec (.readCounters q) s = .next (replyTo 0x0E c .badArgument [] s'))) ∧
  ((∀ n : Nat, be16 n = [BitVec.ofNat 8 (n / 2 ^ 8), BitVec.ofNat 8 n] ∧
     be24 n = [BitVec.ofNat 8 (n / 2 ^ 16), BitVec.ofNat 8 (n / 2 ^ 8), BitVec.ofNat 8 n] ∧
     be32 n = [BitVec.ofNat 8 (n / 2 ^ 24), BitVec.ofNat 8 (n / 2 ^ 16), BitVec.ofNat 8 (n / 2 ^ 8),
       BitVec.ofNat 8 n]) ∧
   (∀ i : Int, beInt16 i = be16 (i % 2 ^ 16).toNat ∧ beInt32 i = be32 (i % 2 ^ 32).toNat) ∧
   ([Liveness.off, .coldHold, .powering, .booting, .running, .warned, .resetting, .cycling, .stopping, .hotHold,
     .latched].map Liveness.code) = List.range 11 ∧
   ([Readiness.notReady, .dwelling, .ready].map Readiness.code) = List.range 3 ∧
   ([FanState.off, .running, .kicking .watch, .failed].map FanState.code) = List.range 4 ∧
   (∀ phase : KickPhase, FanState.code (.kicking phase) = 2) ∧
   ([RestartCause.bootTimeout, .watchdogExpiry, .earlyFeed, .operatorChord, .managementCommand, .overTemperature,
     .externalReset, .hostShutdown].map RestartCause.code) = List.range 8 ∧
   ([RestartAction.resetPulse, .powerCycle, .powerOff].map RestartAction.code) = List.range 3 ∧
   ([ClassMatch.request, .reply, .notice, .any].map ClassMatch.code) = List.range 4 ∧
   ([StationMatch.own, .broadcast, .any].map StationMatch.code) = List.range 3 ∧
   ([RouteAction.forward, .drop, .answer].map RouteAction.code) = List.range 3 ∧
   ([ChordAction.restartHost, .powerCycleHost, .releaseHost, .grantPermit, .flagPattern,
     .noticeOnly].map ChordAction.code) = List.range 6) ∧
  (∀ (s : State) (now : Instant),
     let channelState : Channel → BitVec 2 := fun c => match c with
       | .unseeded => 0
       | .valid _ => 1
       | .faulted _ => 2
     let shown : Channel → List Byte := fun c => match c with
       | .unseeded | .faulted none => beInt16 (-32768)
       | .valid f | .faulted (some f) => beInt16 f
     ∃ b9 b10 b19 : Byte,
       statusPart0 now s =
         [byte s.live.state.code] ++ be32 (now.sec - s.live.enteredAt).toNat ++ [byte s.live.budget.length] ++
         be16 s.live.failedRestarts.toNat ++ [byte s.temp.readiness.code, b9, b10] ++
         shown s.temp.board ++ shown s.temp.glass ++ shown s.temp.air ++
         [byte s.heat.current.onB, byte s.heat.current.onG, b19] ∧
       BitsOf b9 [s.temp.hot, coldFallback s] ∧
       BitsOf b19 [s.heat.cutoffLine, s.heat.cutoffMarks, s.heat.board.blocked, s.heat.glass.blocked] ∧
       b10.extractLsb' 0 2 = channelState s.temp.board ∧ b10.extractLsb' 2 2 = channelState s.temp.glass ∧
       b10.extractLsb' 4 2 = channelState s.temp.air ∧ b10.extractLsb' 6 2 = 0) ∧
  (∀ (s : State) (now : Instant),
     let learnState : BitVec 2 := match s.fan.learn with
       | .idle => 0
       | .learning _ => 1
       | .abandoned => 2
     let minutes : Nat := match s.mgmt.permit with
       | none => 0
       | some p => (p.length - (now.ms - p.start).toNat + 59999) / 60000
     let stuck : KeyPos → Bool := fun p => match s.keypad.keys[p] with
       | .stuck _ => true
       | _ => false
     ∃ b6 b7 b10 : Byte,
       statusPart1 now s =
         [byte (fanOutput s.fan)] ++ be16 s.fan.speed ++ [byte s.fan.state.code] ++
         beInt16 (s.fan.clogIndex.getD (-32768)) ++
         [b6, b7, byte ((List.finRange 48).countP stuck), s.flags, b10, byte minutes,
          s.mgmt.defaultsInUse.setWidth 8, byte ((s.store.writing.map StoreJob.id).getD 0),
          byte ((List.finRange 8).countP fun i : ExchangeId => s.exchanges[i].isWaiting),
          byte ((List.finRange 8).countP fun i : ExchangeId => s.exchanges[i].isLate),
          byte (freeCount s), byte s.keyUnit.queue.length, byte s.keyList.events.length] ∧
       b6.extractLsb' 0 2 = learnState ∧ b6.getLsbD 2 = s.fan.clogWarning ∧ b6.extractLsb' 3 5 = 0 ∧
       BitsOf b7 [s.keypad.flooded, s.keypad.lastSet == some .cold] ∧ BitsOf b10 [s.mgmt.frozen]) ∧
  ((∀ c : Condition, c.encode.setWidth 4 = c.selector ∧ c.encode.extractLsb' 4 3 = 0 ∧ c.encode.msb = c.sense) ∧
   (∀ e : RouteEntry, ∃ b0 : Byte,
     e.encode = [b0, byte e.cls.code, byte e.station.code, e.topicLow, e.topicHigh, e.condition.encode,
       byte e.action.code] ++ be16 e.pattern.toNat ∧
     BitsOf b0 [e.valid, e.source == .host, e.feed, e.capture]) ∧
   (∀ e : KeyMapEntry, ∃ b1 : Byte, e.encode = [e.code, b1, e.condition.encode] ∧
     BitsOf b1 [e.rep, e.fieldRelevant]) ∧
   (∀ e : ChordEntry, ∃ b0 : Byte,
     e.encode = [b0, byte e.first, byte e.second, (e.third.map fun p : KeyPos => byte p).getD 255] ++
       be16 e.holdTime ++ [e.condition.encode, byte e.action.code] ++ be16 e.pattern.toNat ∧
     BitsOf b0 [e.valid]) ∧
   (∀ e : ProxySetup, ∃ b0 : Byte, e.encode = [b0, e.topic] ++ be16 e.maxAge.toNat ∧ BitsOf b0 [e.valid]) ∧
   (∀ r : ProxyRuntime,
     let half : ProxyHalf → List Byte := fun h =>
       [if h.filled = true then 1 else 0, byte h.payload.length] ++ be32 h.stamp.toNat
     r.encode = (if r.active = .half0 then 0 else 1) :: (half r.half0 ++ half r.half1)) ∧
   (∀ r : LogRecord,
     r.encode = be16 r.sequence.toNat ++ [byte r.cause.code, byte r.action.code] ++ be32 r.time.toNat ++
       be24 r.uptime ++ beInt16 r.boardTemp ++ [r.lateReplies, if r.counted = true then 1 else 0]))

/-- R184: WRITE ENTRY of a setting stores the value clamped into its range in the staging copy alone, and reports
the clamp. R183: DISCARD sets one staging copy equal to its live copy and changes no live copy, no further staging
copy and no image. R184, section 9.8: WRITE ENTRY of each further table: the fields read from their bytes into the
staging copy alone, a curve point and a hold time clamped, a code or a member outside its list refused; a wrong length,
table or index is BadArgument and writes nothing, as is a DISCARD of no table. That a negative value written to a coded
setting becomes its code 0 is the model's choice (log 41). -/
def Obligations.StagingRule : Prop :=
  (∀ (s s' : State) (q : Port) (c : Command) (i : Fin 61) (b0 b1 b2 b3 : Byte),
     Takes 0x03 q c s s' → Permitted q s → s.mgmt.frozen = false → c.args = [6, byte i, b0, b1, b2, b3] →
     let x := (b0 ++ b1 ++ b2 ++ b3).toInt
     let y := max (settingRow i).lo (min (settingRow i).hi x)
     exec (.writeEntry q) s = .next (replyTo 0x03 c .done [if y = x then 0 else 1] { s' with
       tables := { s'.tables with settings :=
         { s'.tables.settings with staging := s'.tables.settings.staging.set i y } } })) ∧
  (∀ (s s' : State) (q : Port) (c : Command) (table : Byte),
     Takes 0x05 q c s s' → Permitted q s → s.mgmt.frozen = false → c.args = [table] →
     1 ≤ table.toNat → table.toNat ≤ 7 →
     exec (.discard q) s = .next (replyTo 0x05 c .done [] { s' with tables := { s'.tables with
       route.staging := if table = 1 then s'.tables.route.live else s'.tables.route.staging
       keyMap.staging := if table = 2 then s'.tables.keyMap.live else s'.tables.keyMap.staging
       chord.staging := if table = 3 then s'.tables.chord.live else s'.tables.chord.staging
       curveA.staging := if table = 4 then s'.tables.curveA.live else s'.tables.curveA.staging
       curveB.staging := if table = 5 then s'.tables.curveB.live else s'.tables.curveB.staging
       settings.staging := if table = 6 then s'.tables.settings.live else s'.tables.settings.staging
       proxy.staging := if table = 7 then s'.tables.proxy.live else s'.tables.proxy.staging } })) ∧
  (∀ (s s' : State) (q : Port) (c : Command), Takes 0x03 q c s s' → Permitted q s → s.mgmt.frozen = false →
     let bad := exec (.writeEntry q) s = .next (replyTo 0x03 c .badArgument [] s')
     let written : Byte → Tables → Prop := fun clamped tables =>
       exec (.writeEntry q) s = .next (replyTo 0x03 c .done [clamped] { s' with tables := tables })
     (∀ (i : RouteId) (b0 b1 b2 b3 b4 b5 b6 b7 b8 b9 : Byte),
       c.args = [1, byte i, b0, b1, b2, b3, b4, b5, b6, b7, b8, b9] →
       match ([.request, .reply, .notice, .any] : List ClassMatch)[b1.toNat]?,
         ([.own, .broadcast, .any] : List StationMatch)[b2.toNat]?,
         ([.forward, .drop, .answer] : List RouteAction)[b6.toNat]? with
       | some cls, some station, some action => written 0 { s'.tables with
           route.staging := s'.tables.route.staging.set i ⟨b0.getLsbD 0, if b0.getLsbD 1 then .host else .field, cls,
             station, b3, b4, ⟨b5.setWidth 4, b5.msb⟩, action, b0.getLsbD 2, b0.getLsbD 3, b7 ++ b8⟩ }
       | _, _, _ => bad) ∧
     (∀ (i : KeyPos) (b0 b1 b2 : Byte), c.args = [2, byte i, b0, b1, b2] → written 0 { s'.tables with
       keyMap.staging := s'.tables.keyMap.staging.set i
         ⟨b0, b1.getLsbD 0, b1.getLsbD 1, ⟨b2.setWidth 4, b2.msb⟩⟩ }) ∧
     (∀ (i : ChordId) (b0 b1 b2 b3 b4 b5 b6 b7 b8 b9 : Byte),
       c.args = [3, byte i, b0, b1, b2, b3, b4, b5, b6, b7, b8, b9] →
       let hold := (b4 ++ b5).toNat
       let clamped := max 500 (min 10000 hold)
       match keyPosOfNat b1.toNat, keyPosOfNat b2.toNat,
         ([.restartHost, .powerCycleHost, .releaseHost, .grantPermit, .flagPattern, .noticeOnly] :
           List ChordAction)[b7.toNat]? with
       | some first, some second, some action =>
         let put : Option KeyPos → Prop := fun third => written (if clamped = hold then 0 else 1) { s'.tables with
           chord.staging := s'.tables.chord.staging.set i
             ⟨b0.getLsbD 0, first, second, third, clamped, ⟨b6.setWidth 4, b6.msb⟩, action, b8 ++ b9⟩ }
         (b3 = 255 → put none) ∧ (∀ third : KeyPos, keyPosOfNat b3.toNat = some third → put (some third)) ∧
         (b3 ≠ 255 → 48 ≤ b3.toNat → bad)
       | _, _, _ => bad) ∧
     (∀ (i : Fin 17) (hi lo : Byte),
       let x := (hi ++ lo).toInt
       let y := max (-500) (min 1500 x)
       let clamped : Byte := if y = x then 0 else 1
       (c.args = [4, byte i, hi, lo] →
         written clamped { s'.tables with curveA.staging := s'.tables.curveA.staging.set i y }) ∧
       (c.args = [5, byte i, hi, lo] →
         written clamped { s'.tables with curveB.staging := s'.tables.curveB.staging.set i y })) ∧
     (∀ (i : ProxyId) (b0 b1 b2 b3 : Byte), c.args = [7, byte i, b0, b1, b2, b3] → written 0 { s'.tables with
       proxy.staging := s'.tables.proxy.staging.set i ⟨b0.getLsbD 0, b1, b2 ++ b3⟩ }) ∧
     ((entryCount (byteAt c.args 0).toNat ≤ (byteAt c.args 1).toNat ∨
         c.args.length ≠ 2 + ([0, 10, 3, 10, 2, 2, 4, 4] : List Nat).getD (byteAt c.args 0).toNat 0) → bad)) ∧
  (∀ (s s' : State) (q : Port) (c : Command) (table : Byte), Takes 0x05 q c s s' → Permitted q s →
     s.mgmt.frozen = false → c.args = [table] → (table = 0 ∨ 7 < table.toNat) →
     exec (.discard q) s = .next (replyTo 0x05 c .badArgument [] s'))

/-- R185, R187: an accepted COMMIT: the checks pass, the table is swapped, and with store 1 the store begins to
write the new live copy; with store 1 it is Busy, and nothing is validated, while the store is Writing or a reset is
pending; a table or a store byte out of range is BadArgument. R47, R66, R170, R185: which check a staged table takes and
which entry and reason it names: the first faulty Route entry with the lowest of its four reasons, the first Chord
entry that names a position twice, the first Proxy Setup entry whose topic stands before it, and the Settings pairs in
order; the Key Map and the curves have none. That the reply is written in the state the swap leaves, from the new
mgmtStation above all, is the model's choice (log 19). -/
def Obligations.CommitRule : Prop :=
  (∀ (s s' : State) (q : Port) (c : Command) (table store : Byte),
     Takes 0x04 q c s s' → Permitted q s → s.mgmt.frozen = false → c.args = [table, store] →
     1 ≤ table.toNat → table.toNat ≤ 7 → store.toNat ≤ 1 →
     (if store = 1 ∧ (s.store.writing.isSome = true ∨ s.mgmt.resetPending.isSome = true) then
       exec (.commit q) s = .next (replyTo 0x04 c .busy [] s')
     else match stagingFault table.toNat s.tables with
       | some f => exec (.commit q) s =
           .next (replyTo 0x04 c .invalid [table, byte f.1, byte f.2] s')
       | none =>
         let u := swapTable table.toNat s'
         exec (.commit q) s = .next (replyTo 0x04 c .done []
           (if store = 1 then { u with store := { u.store with writing := captureImage table.toNat u.tables } }
           else u)))) ∧
  (∀ (s s' : State) (q : Port) (c : Command) (table store : Byte),
     Takes 0x04 q c s s' → Permitted q s → s.mgmt.frozen = false → c.args = [table, store] →
     (table = 0 ∨ 7 < table.toNat ∨ 1 < store.toNat) →
     exec (.commit q) s = .next (replyTo 0x04 c .badArgument [] s')) ∧
  (∀ tb : Tables,
     (stagingFault 1 tb = routeFault tb.route.staging ∧ stagingFault 2 tb = none ∧
       stagingFault 3 tb = chordFault tb.chord.staging ∧ stagingFault 4 tb = none ∧ stagingFault 5 tb = none ∧
       stagingFault 6 tb = settingsFault tb.settings.staging ∧
       stagingFault 7 tb = proxyFault tb.proxy.staging) ∧
     (captureImage 1 tb = some (.route tb.route.live) ∧ captureImage 2 tb = some (.keyMap tb.keyMap.live) ∧
       captureImage 3 tb = some (.chord tb.chord.live) ∧ captureImage 4 tb = some (.curveA tb.curveA.live) ∧
       captureImage 5 tb = some (.curveB tb.curveB.live) ∧
       captureImage 6 tb = some (.settings tb.settings.live) ∧
       captureImage 7 tb = some (.proxy tb.proxy.live))) ∧
  ((∀ t : RouteTable,
     (∀ (i : RouteId) (r : Nat), routeFault t = some (i.val, r) ↔
       t[i].fault = some r ∧ ∀ j : RouteId, j < i → t[j].fault = none) ∧
     (routeFault t = none ↔ ∀ i : RouteId, t[i].fault = none)) ∧
   (∀ e : RouteEntry, e.fault =
     (if e.valid = false then none
     else if e.topicHigh.toNat < e.topicLow.toNat then some 1
     else if e.action = .answer ∧ ¬(e.source = .field ∧ e.cls = .request ∧ e.station = .own) then some 2
     else if e.feed = true ∧ e.source = .field then some 3
     else if e.capture = true ∧ ¬(e.source = .host ∧ e.cls = .reply ∧ e.action = .forward) then some 4
     else none)) ∧
   (∀ t : ChordTable,
     let twice : ChordId → Prop := fun i => t[i].valid = true ∧
       (t[i].first = t[i].second ∨ t[i].third = some t[i].first ∨ t[i].third = some t[i].second)
     (∀ (i : ChordId) (r : Nat), chordFault t = some (i.val, r) ↔ r = 1 ∧ twice i ∧ ∀ j : ChordId, j < i → ¬twice j) ∧
     (chordFault t = none ↔ ∀ i : ChordId, ¬twice i)) ∧
   (∀ t : ProxySetupTable,
     let repeats : ProxyId → Prop := fun i => t[i].valid = true ∧
       ∃ j : ProxyId, j < i ∧ t[j].valid = true ∧ t[j].topic = t[i].topic
     (∀ (i : ProxyId) (r : Nat), proxyFault t = some (i.val, r) ↔
       r = 1 ∧ repeats i ∧ ∀ k : ProxyId, k < i → ¬repeats k) ∧
     (proxyFault t = none ↔ ∀ i : ProxyId, ¬repeats i)) ∧
   (∀ t : SettingsTable, settingsFault t =
     (if t.mgmtStation = t.ownStation then some (3, 1)
     else if t.fanFull ≤ t.fanStart then some (43, 2)
     else if t.shutdownTemp ≤ t.resumeTemp then some (29, 3)
     else none)))

/-- R48, R67, R93, R104, R160, R173, R124: what a swap makes of each table and of its block. R93: the oldest entries
leave the Budget List and are counted; R124: a heater that is no longer allowed is blocked, and nothing else of the
heaters changes; R123: when a heater is allowed. That a Holding chord which a Chord commit returns to Idle is not counted
as abandoned is the model's choice (log 40). -/
def Obligations.SwapRule : Prop :=
  ∀ s : State,
    swapTable 1 s = { s with tables := { s.tables with
      route := ⟨s.tables.route.staging, s.tables.route.staging⟩, hits := Vector.replicate 32 0 } } ∧
    swapTable 2 s = { s with tables := { s.tables with
      keyMap := ⟨s.tables.keyMap.staging, s.tables.keyMap.staging⟩ } } ∧
    swapTable 3 s = { s with
      tables := { s.tables with chord := ⟨s.tables.chord.staging, s.tables.chord.staging⟩ }
      keyUnit := { s.keyUnit with chords := Vector.replicate 8 .idle } } ∧
    swapTable 4 s = { s with tables := { s.tables with
      curveA := ⟨s.tables.curveA.staging, s.tables.curveA.staging⟩ } } ∧
    swapTable 5 s = { s with tables := { s.tables with
      curveB := ⟨s.tables.curveB.staging, s.tables.curveB.staging⟩ } } ∧
    (∃ t : State, swapTable 6 s = t ∧
      t.tables = { s.tables with settings := ⟨s.tables.settings.staging, s.tables.settings.staging⟩ } ∧
      t.live = { s.live with
        budget := s.live.budget.drop (s.live.budget.length - s.tables.settings.staging.maxRestarts.toNat) } ∧
      (∀ h : Heater, heaterAllowed t h = false → (t.heat.channel h).blocked = true) ∧
      BlocksNotAllowed s t ∧
      t.counters.liveness = (bumpBy Ctr.livenessBudgetEntriesExpired
        (s.live.budget.length - s.tables.settings.staging.maxRestarts.toNat) s).counters.liveness ∧
      t = { s with
        tables := t.tables, live := t.live, heat := t.heat
        counters := { s.counters with liveness := t.counters.liveness, thermal := t.counters.thermal } }) ∧
    (∀ h : Heater, heaterAllowed s h = true ↔ hostPowerEnable s = false ∨
      (settings s).hostLoad + (match h with
        | .board => (settings s).boardLoad
        | .glass => (settings s).glassLoad) ≤ (settings s).supplyCap) ∧
    (∃ t : State, swapTable 7 s = t ∧
      t.tables = { s.tables with proxy := ⟨s.tables.proxy.staging, s.tables.proxy.staging⟩ } ∧
      (∀ e : ProxyId, s.tables.proxy.live[e].valid = s.tables.proxy.staging[e].valid →
        s.tables.proxy.live[e].topic = s.tables.proxy.staging[e].topic → t.proxy[e] = s.proxy[e]) ∧
      (∀ (e : ProxyId) (h : HalfId), (s.tables.proxy.live[e].valid ≠ s.tables.proxy.staging[e].valid ∨
          s.tables.proxy.live[e].topic ≠ s.tables.proxy.staging[e].topic) →
        (t.proxy[e].get h).filled = false ∧ t.proxy[e].active = s.proxy[e].active ∧
        ((s.proxy[e].get h).pins = 0 → t.proxy[e].get h = {}) ∧
        (0 < (s.proxy[e].get h).pins →
          t.proxy[e].get h = { s.proxy[e].get h with filled := false })))

/-- R187: a completed store write, for each table: the image stands with its CRC-16, the store is Idle and the table's
DefaultsInUse mark is clear. R180: the permit's timer ends it and nothing else. That either event changes nothing before
its time, without a write or with no permit is the model's choice (log 2), and so is the order of the image bytes that
the CRC-16 is taken over (log 9). -/
def Obligations.StoreAndPermitTimers : Prop :=
  (∀ s : State,
     (∀ t : SettingsTable, s.store.writing = some (.settings t) →
       exec .storeWriteComplete s = .next { s with
         store := { s.store with writing := none, settings := some ⟨t, crc16 (settingsImage t)⟩ }
         mgmt := { s.mgmt with defaultsInUse := s.mgmt.defaultsInUse &&& 0b1011111#7 } }) ∧
     (let written : Store → BitVec 7 → Prop := fun st keep => exec .storeWriteComplete s = .next { s with
        store := { st with writing := none }
        mgmt := { s.mgmt with defaultsInUse := s.mgmt.defaultsInUse &&& keep } }
      (∀ t : RouteTable, s.store.writing = some (.route t) →
        written { s.store with route := some ⟨t, crc16 (routeImage t)⟩ } 0b1111110) ∧
      (∀ t : KeyMapTable, s.store.writing = some (.keyMap t) →
        written { s.store with keyMap := some ⟨t, crc16 (keyMapImage t)⟩ } 0b1111101) ∧
      (∀ t : ChordTable, s.store.writing = some (.chord t) →
        written { s.store with chord := some ⟨t, crc16 (chordImage t)⟩ } 0b1111011) ∧
      (∀ t : CurveTable, s.store.writing = some (.curveA t) →
        written { s.store with curveA := some ⟨t, crc16 (curveImage t)⟩ } 0b1110111) ∧
      (∀ t : CurveTable, s.store.writing = some (.curveB t) →
        written { s.store with curveB := some ⟨t, crc16 (curveImage t)⟩ } 0b1101111) ∧
      (∀ t : ProxySetupTable, s.store.writing = some (.proxy t) →
        written { s.store with proxy := some ⟨t, crc16 (proxyImage t)⟩ } 0b0111111)) ∧
     (s.store.writing = none → exec .storeWriteComplete s = .next s)) ∧
  (∀ s : State, exec .permitExpiry s = .next
     (match s.mgmt.permit with
       | some t =>
         if t.length ≤ (s.clock.ms - t.start).toNat then { s with mgmt := { s.mgmt with permit := none } } else s
       | none => s))

/-- R65, R30: WRITE PROXY fills the unpinned inactive half and makes it active, or is Busy; an index above 15, a length
above 30, a payload of another length than 2 + length and an entry with valid no are BadArgument and write nothing. SET
FLAGS applies its
pattern and answers the flags after it. -/
def Obligations.WriteProxyAndFlags : Prop :=
  ∀ (s s' : State) (q : Port) (c : Command), Permitted q s →
    (∀ (e : ProxyId) (payload : List Byte), Takes 0x06 q c s s' → payload.length ≤ 30 →
      c.args = byte e :: byte payload.length :: payload → s.tables.proxy.live[e].valid = true →
      exec (.writeProxy q) s =
        (let r := s.proxy[e]
         if 0 < (r.get r.active.other).pins then
           .next (replyTo 0x06 c .busy [] (bump Ctr.proxyBusyProxyWrites s'))
         else .next (replyTo 0x06 c .done [] (bump Ctr.proxyProxyWrites { s' with
           proxy := s'.proxy.set e
             { r.set r.active.other ⟨true, payload, c.arrival.sec, 0⟩ with active := r.active.other } })))) ∧
    (Takes 0x06 q c s s' →
      (15 < (byteAt c.args 0).toNat ∨ 30 < (byteAt c.args 1).toNat ∨
        c.args.length ≠ 2 + (byteAt c.args 1).toNat ∨
        ∃ e : ProxyId, byteAt c.args 0 = byte e ∧ s.tables.proxy.live[e].valid = false) →
      exec (.writeProxy q) s = .next (replyTo 0x06 c .badArgument [] s')) ∧
    (∀ hi lo : Byte, Takes 0x07 q c s s' → c.args = [hi, lo] →
      exec (.setFlags q) s = .next (replyTo 0x07 c .done [applyPattern (hi ++ lo) s.flags]
        { s' with flags := applyPattern (hi ++ lo) s.flags }))

/-- R84: FEED from the Host Link by liveness state: accepted in BOOTING and WARNED with RUNNING after it, accepted
or early in RUNNING by windowMin, and WrongState in any other state. R84, R86: the third early FEED in a row sets the
streak to 0 and takes a counted restart with cause EarlyFeed, with what leaving HostUp does (R57, R168; the order of
expiry is the model's choice, log 33), and its reply carries the state that this leads to. -/
def Obligations.FeedRule : Prop :=
  ∀ (s s' : State) (c : Command), Takes 0x08 .host c s s' → c.args = [] →
    ((s.live.state = .booting ∨ s.live.state = .warned) →
      ∃ u : State, exec (.feed .host) s = .next (replyTo 0x08 c .done [1, 4] u) ∧
        u.live = { s.live with
          state := .running, enteredAt := c.arrival.sec, lastHeartbeat := c.arrival.ms, earlyStreak := 0,
          failedRestarts := 0, lateReplies := 0,
          timer := some ⟨c.arrival.ms, (settings s).windowMax.toNat⟩ } ∧
        u.keyList.events = (if s.live.state = .booting then [] else s.keyList.events) ∧
        u.log = s.log ∧ u.exchanges = s.exchanges ∧ u.tables = s.tables ∧ u.temp = s.temp) ∧
    (s.live.state = .running → (settings s).windowMin.toNat ≤ elapsed s.live.lastHeartbeat c.arrival.ms →
      exec (.feed .host) s = .next (replyTo 0x08 c .done [1, 4] (bump Ctr.livenessFeedsAccepted
        { s' with live := { s'.live with
          timer := some ⟨c.arrival.ms, (settings s).windowMax.toNat⟩, lastHeartbeat := c.arrival.ms,
          earlyStreak := 0 } }))) ∧
    (s.live.state = .running → elapsed s.live.lastHeartbeat c.arrival.ms < (settings s).windowMin.toNat →
      s.live.earlyStreak < 2 →
      exec (.feed .host) s = .next (replyTo 0x08 c .done [0, 4] (bump Ctr.livenessEarlyFeeds
        { s' with live := { s'.live with earlyStreak := s.live.earlyStreak + 1 } }))) ∧
    (s.live.state = .running → elapsed s.live.lastHeartbeat c.arrival.ms < (settings s).windowMin.toNat →
      2 ≤ s.live.earlyStreak →
      ∃ u : State, exec (.feed .host) s = .next (replyTo 0x08 c .done [0, byte u.live.state.code] u) ∧
        (let aged := s.live.budget.dropWhile fun e =>
           decide ((settings s).budgetWindow.toNat < elapsed e c.arrival.sec)
         let failed := satAdd s.live.failedRestarts 1
         let record : RestartAction → LogRecord := fun act => ⟨s.log.nextSeq, .earlyFeed, act, c.arrival.sec,
           uptimeAt s.live c.arrival, loggedBoardTemp s, s.live.lateReplies, true⟩
         if (settings s).maxRestarts.toNat ≤ aged.length then
           u.live = { s.live with
             state := .latched, enteredAt := c.arrival.sec, timer := none, budget := aged, earlyStreak := 0 } ∧
           u.log = s.log.append (record .powerOff)
         else if (settings s).resetEscalation.toNat ≤ failed.toNat then
           u.live = { s.live with
             state := .cycling, enteredAt := c.arrival.sec, budget := aged ++ [c.arrival.sec],
             failedRestarts := failed, earlyStreak := 0,
             timer := some ⟨c.arrival.ms, (settings s).cycleOff.toNat * 1000⟩ } ∧
           u.log = s.log.append (record .powerCycle)
         else
           u.live = { s.live with
             state := .resetting, enteredAt := c.arrival.sec, budget := aged ++ [c.arrival.sec],
             failedRestarts := failed, earlyStreak := 0,
             timer := some ⟨c.arrival.ms, (settings s).resetPulse.toNat⟩ } ∧
           u.log = s.log.append (record .resetPulse)) ∧
        LeavesHostUp s' u ∧
        u.temp = s.temp ∧ u.heat = s.heat ∧ u.fan = s.fan ∧ u.tables = s.tables ∧ u.flags = s.flags) ∧
    (s.live.state ∉ [.booting, .running, .warned] →
      exec (.feed .host) s = .next (replyTo 0x08 c .wrongState [] (bump Ctr.livenessFeedsInWrongState s')))

/-- R78, R90, R91: HOST RESTART of a powered host, HOST POWER OFF of a powered and of an unpowered one, and HOST
RELEASE from OFF or LATCHED act; in every other state they are answered WrongState and change nothing. A HOST RESTART of
a kind above 1 and a delay above 600 are BadArgument. R91: in STOPPING
the timer starts again with the new delay, the entry time staying by the model's choice (log 34), and a delay of 0 ends
in OFF with the HostShutdown record at once. R57, R168: what leaving HostUp does; the order of expiry is the model's choice
(log 33). -/
def Obligations.HostPowerCommands : Prop :=
  ∀ (s s' : State) (q : Port) (c : Command),
    (∀ kind : Byte, Takes 0x09 q c s s' → Permitted q s → c.args = [kind] → kind.toNat ≤ 1 →
      exec (.hostRestart q) s =
        (if hostPowerEnable s = true then
          .next (replyTo 0x09 c .done [if kind = 1 then 7 else 6]
            (uncountedRestart .managementCommand (decide (kind = 1)) c.arrival s'))
        else .next (replyTo 0x09 c .wrongState [] s'))) ∧
    (∀ kind : Byte, Takes 0x09 q c s s' → Permitted q s → c.args = [kind] → 1 < kind.toNat →
      exec (.hostRestart q) s = .next (replyTo 0x09 c .badArgument [] s')) ∧
    (∀ hi lo : Byte, Takes 0x0A .host c s s' → c.args = [hi, lo] → (hi ++ lo).toNat ≤ 600 →
      (s.live.state ∈ [.coldHold, .cycling] → exec (.hostPowerOff .host) s =
        .next (replyTo 0x0A c .done [0] { s' with live := { s'.live with
          state := .off, enteredAt := c.arrival.sec, timer := none } })) ∧
      (s.live.state ∈ [.off, .hotHold, .latched] → exec (.hostPowerOff .host) s =
        .next (replyTo 0x0A c .wrongState [] s')) ∧
      (s.live.state ∈ [.powering, .booting, .running, .warned, .resetting] → 0 < (hi ++ lo).toNat →
        ∃ u : State, exec (.hostPowerOff .host) s = .next (replyTo 0x0A c .done [8] u) ∧
          u.live = { s.live with
            state := .stopping, enteredAt := c.arrival.sec,
            timer := some ⟨c.arrival.ms, (hi ++ lo).toNat * 1000⟩ } ∧
          (hostUp s = true → LeavesHostUp s' u) ∧ HostUpHandOver s' u ∧
          u.log = s.log ∧ u.tables = s.tables ∧ u.temp = s.temp ∧ u.heat = s.heat) ∧
      (s.live.state = .stopping → 0 < (hi ++ lo).toNat → exec (.hostPowerOff .host) s =
        .next (replyTo 0x0A c .done [8] { s' with live := { s'.live with
          timer := some ⟨c.arrival.ms, (hi ++ lo).toNat * 1000⟩ } })) ∧
      (hostPowerEnable s = true → (hi ++ lo).toNat = 0 →
        ∃ u : State, exec (.hostPowerOff .host) s = .next (replyTo 0x0A c .done [0] u) ∧
          u.live = { s.live with state := .off, enteredAt := c.arrival.sec, timer := none } ∧
          u.log = s.log.append ⟨s.log.nextSeq, .hostShutdown, .powerOff, c.arrival.sec, uptimeAt s.live c.arrival,
            loggedBoardTemp s, s.live.lateReplies, false⟩ ∧
          (hostUp s = true → LeavesHostUp s' u) ∧ HostUpHandOver s' u ∧
          u.tables = s.tables ∧ u.temp = s.temp ∧ u.heat = s.heat)) ∧
    (∀ hi lo : Byte, Takes 0x0A .host c s s' → c.args = [hi, lo] → 600 < (hi ++ lo).toNat →
      exec (.hostPowerOff .host) s = .next (replyTo 0x0A c .badArgument [] s')) ∧
    (Takes 0x0B q c s s' → Permitted q s → c.args = [] →
      exec (.hostRelease q) s =
        (if s.live.state = .off ∨ s.live.state = .latched then
          .next (replyTo 0x0B c .done [byte (releaseHost c.arrival s').live.state.code]
            (releaseHost c.arrival s'))
        else .next (replyTo 0x0B c .wrongState [] s')))

/-- R95, R137, R179, R189: CLEAR LOG, LEARN AIRFLOW, FREEZE and SUPERVISOR RESET carried out, and when they are Busy
(the store Writing, a learn running, a reset pending) or in the wrong state (Board or Air not Valid). -/
def Obligations.OtherCommandsRule : Prop :=
  ∀ (s s' : State) (q : Port) (c : Command), c.args = [] →
    (Takes 0x0D q c s s' → Permitted q s → s.mgmt.frozen = false → exec (.clearLog q) s =
      .next (if s.store.writing.isSome = true then replyTo 0x0D c .busy [] s'
        else replyTo 0x0D c .done [] { s' with log := { s'.log with records := [] } })) ∧
    (Takes 0x0F q c s s' → Permitted q s → s.mgmt.frozen = false → s.fan.learn.isLearning = false →
      ∀ b a : Int, s.temp.board = .valid b → s.temp.air = .valid a → ∃ u : State,
        exec (.learnAirflow q) s = .next (replyTo 0x0F c .done [] u) ∧
        u.fan.learn = .learning ⟨c.arrival.ms, 120000⟩ ∧ u.fan.commanded = 100 ∧
        u.fan.state = (if s.fan.state = .off then .running else s.fan.state) ∧
        u = { s' with fan := u.fan }) ∧
    (Takes 0x0F q c s s' → Permitted q s → s.mgmt.frozen = false → s.fan.learn.isLearning = true →
      exec (.learnAirflow q) s = .next (replyTo 0x0F c .busy [] s')) ∧
    (Takes 0x0F q c s s' → Permitted q s → s.mgmt.frozen = false → s.fan.learn.isLearning = false →
      (s.temp.board.isValid = false ∨ s.temp.air.isValid = false) →
      exec (.learnAirflow q) s = .next (replyTo 0x0F c .wrongState [] s')) ∧
    (Takes 0x10 .host c s s' → s.mgmt.frozen = false → exec (.freeze .host) s =
      .next (replyTo 0x10 c .done [] { s' with mgmt := { s'.mgmt with frozen := true } })) ∧
    (Takes 0x11 .host c s s' → s.store.writing = none → s.mgmt.resetPending = none →
      exec (.supervisorReset .host) s =
        (if s.hostPort.queue.length < 16 then
          let u := replyTo 0x11 c .done [] s'
          .next { u with mgmt := { u.mgmt with resetPending := some c.buffer } }
        else .next (inBandReset (replyTo 0x11 c .done [] s')))) ∧
    (Takes 0x11 .host c s s' → (s.store.writing.isSome = true ∨ s.mgmt.resetPending.isSome = true) →
      exec (.supervisorReset .host) s = .next (replyTo 0x11 c .busy [] s'))

/-! ### Invariants of every command -/

/-- R123, R126, R128: no command takes the heaters out of their interlocks. -/
def Obligations.HeatersSafeKept : Prop :=
  ∀ (c : Instr) (s t : State), HeatersSafe s → exec c s = .next t → HeatersSafe t

/-- R50: no command makes two Waiting or Late entries hold one tag. -/
def Obligations.ExchangeTagsDistinctKept : Prop :=
  ∀ (c : Instr) (s t : State), ExchangeTagsDistinct s → exec c s = .next t → ExchangeTagsDistinct t

/-- R96, R168, R73: no command leaves a record in the Key Event Queue of a host that is not up, nor an event on the
Field Key List of one that is. -/
def Obligations.KeysFollowHostKept : Prop :=
  ∀ (c : Instr) (s t : State), KeysFollowHost s → exec c s = .next t → KeysFollowHost t

/-- R184, R186, R188: no command puts a setting outside its range in any copy or image; and with every setting in
range no command takes a queue, a list, a pin count or an integrator past its capacity. R15, R16, R18, R19: no command
puts a buffer in two places or twice in a transmit queue, leaves one in another state than that of its place, or loses
one that no place holds. -/
def Obligations.CapacitiesKept : Prop :=
  (∀ (c : Instr) (s t : State), AllSettingsInRange s → exec c s = .next t →
    AllSettingsInRange t ∧ (WithinCapacity s → WithinCapacity t)) ∧
  (∀ (c : Instr) (s t : State), PoolAccounted s → exec c s = .next t → PoolAccounted t)

/-- State.reset is inside every invariant stated here. -/
def Obligations.ResetIsSafe : Prop :=
  HeatersSafe State.reset ∧ ExchangeTagsDistinct State.reset ∧ KeysFollowHost State.reset ∧
  AllSettingsInRange State.reset ∧ WithinCapacity State.reset ∧ TimerMatchesState State.reset ∧
  PoolAccounted State.reset

end
end

