-- ==== Sys2Proof/Laws/State.lean ====
section
/-! SUPPORT. What each named update of State leaves alone: one lemma per field, so that no proof unfolds a record
update. -/

namespace Sys2Proof.Machine

/-! ### bumpBy -/

@[simp] theorem bumpBy_pending (id : CounterId) (n : Nat) (s : State) : (bumpBy id n s).pending = s.pending := rfl

@[simp] theorem bumpBy_clock (id : CounterId) (n : Nat) (s : State) : (bumpBy id n s).clock = s.clock := rfl

@[simp] theorem bumpBy_pool (id : CounterId) (n : Nat) (s : State) : (bumpBy id n s).pool = s.pool := rfl

@[simp] theorem bumpBy_hostPort (id : CounterId) (n : Nat) (s : State) : (bumpBy id n s).hostPort = s.hostPort := rfl

@[simp] theorem bumpBy_fieldPort (id : CounterId) (n : Nat) (s : State) : (bumpBy id n s).fieldPort = s.fieldPort := rfl

@[simp] theorem bumpBy_noticeNo (id : CounterId) (n : Nat) (s : State) : (bumpBy id n s).noticeNo = s.noticeNo := rfl

@[simp] theorem bumpBy_flags (id : CounterId) (n : Nat) (s : State) : (bumpBy id n s).flags = s.flags := rfl

@[simp] theorem bumpBy_exchanges (id : CounterId) (n : Nat) (s : State) : (bumpBy id n s).exchanges = s.exchanges := rfl

@[simp] theorem bumpBy_proxy (id : CounterId) (n : Nat) (s : State) : (bumpBy id n s).proxy = s.proxy := rfl

@[simp] theorem bumpBy_keyList (id : CounterId) (n : Nat) (s : State) : (bumpBy id n s).keyList = s.keyList := rfl

@[simp] theorem bumpBy_live (id : CounterId) (n : Nat) (s : State) : (bumpBy id n s).live = s.live := rfl

@[simp] theorem bumpBy_log (id : CounterId) (n : Nat) (s : State) : (bumpBy id n s).log = s.log := rfl

@[simp] theorem bumpBy_temp (id : CounterId) (n : Nat) (s : State) : (bumpBy id n s).temp = s.temp := rfl

@[simp] theorem bumpBy_heat (id : CounterId) (n : Nat) (s : State) : (bumpBy id n s).heat = s.heat := rfl

@[simp] theorem bumpBy_fan (id : CounterId) (n : Nat) (s : State) : (bumpBy id n s).fan = s.fan := rfl

@[simp] theorem bumpBy_keypad (id : CounterId) (n : Nat) (s : State) : (bumpBy id n s).keypad = s.keypad := rfl

@[simp] theorem bumpBy_keyUnit (id : CounterId) (n : Nat) (s : State) : (bumpBy id n s).keyUnit = s.keyUnit := rfl

@[simp] theorem bumpBy_mgmt (id : CounterId) (n : Nat) (s : State) : (bumpBy id n s).mgmt = s.mgmt := rfl

@[simp] theorem bumpBy_tables (id : CounterId) (n : Nat) (s : State) : (bumpBy id n s).tables = s.tables := rfl

@[simp] theorem bumpBy_store (id : CounterId) (n : Nat) (s : State) : (bumpBy id n s).store = s.store := rfl

/-! ### bump -/

@[simp] theorem bump_pending (id : CounterId) (s : State) : (bump id s).pending = s.pending := rfl

@[simp] theorem bump_clock (id : CounterId) (s : State) : (bump id s).clock = s.clock := rfl

@[simp] theorem bump_pool (id : CounterId) (s : State) : (bump id s).pool = s.pool := rfl

@[simp] theorem bump_hostPort (id : CounterId) (s : State) : (bump id s).hostPort = s.hostPort := rfl

@[simp] theorem bump_fieldPort (id : CounterId) (s : State) : (bump id s).fieldPort = s.fieldPort := rfl

@[simp] theorem bump_noticeNo (id : CounterId) (s : State) : (bump id s).noticeNo = s.noticeNo := rfl

@[simp] theorem bump_flags (id : CounterId) (s : State) : (bump id s).flags = s.flags := rfl

@[simp] theorem bump_exchanges (id : CounterId) (s : State) : (bump id s).exchanges = s.exchanges := rfl

@[simp] theorem bump_proxy (id : CounterId) (s : State) : (bump id s).proxy = s.proxy := rfl

@[simp] theorem bump_keyList (id : CounterId) (s : State) : (bump id s).keyList = s.keyList := rfl

@[simp] theorem bump_live (id : CounterId) (s : State) : (bump id s).live = s.live := rfl

@[simp] theorem bump_log (id : CounterId) (s : State) : (bump id s).log = s.log := rfl

@[simp] theorem bump_temp (id : CounterId) (s : State) : (bump id s).temp = s.temp := rfl

@[simp] theorem bump_heat (id : CounterId) (s : State) : (bump id s).heat = s.heat := rfl

@[simp] theorem bump_fan (id : CounterId) (s : State) : (bump id s).fan = s.fan := rfl

@[simp] theorem bump_keypad (id : CounterId) (s : State) : (bump id s).keypad = s.keypad := rfl

@[simp] theorem bump_keyUnit (id : CounterId) (s : State) : (bump id s).keyUnit = s.keyUnit := rfl

@[simp] theorem bump_mgmt (id : CounterId) (s : State) : (bump id s).mgmt = s.mgmt := rfl

@[simp] theorem bump_tables (id : CounterId) (s : State) : (bump id s).tables = s.tables := rfl

@[simp] theorem bump_store (id : CounterId) (s : State) : (bump id s).store = s.store := rfl

/-! ### setBuffer -/

@[simp] theorem setBuffer_pending (b : BufferId) (f : Buffer) (s : State) : (setBuffer b f s).pending = s.pending := rfl

@[simp] theorem setBuffer_clock (b : BufferId) (f : Buffer) (s : State) : (setBuffer b f s).clock = s.clock := rfl

@[simp] theorem setBuffer_hostPort (b : BufferId) (f : Buffer) (s : State) : (setBuffer b f s).hostPort = s.hostPort := rfl

@[simp] theorem setBuffer_fieldPort (b : BufferId) (f : Buffer) (s : State) : (setBuffer b f s).fieldPort = s.fieldPort := rfl

@[simp] theorem setBuffer_noticeNo (b : BufferId) (f : Buffer) (s : State) : (setBuffer b f s).noticeNo = s.noticeNo := rfl

@[simp] theorem setBuffer_flags (b : BufferId) (f : Buffer) (s : State) : (setBuffer b f s).flags = s.flags := rfl

@[simp] theorem setBuffer_exchanges (b : BufferId) (f : Buffer) (s : State) : (setBuffer b f s).exchanges = s.exchanges := rfl

@[simp] theorem setBuffer_proxy (b : BufferId) (f : Buffer) (s : State) : (setBuffer b f s).proxy = s.proxy := rfl

@[simp] theorem setBuffer_keyList (b : BufferId) (f : Buffer) (s : State) : (setBuffer b f s).keyList = s.keyList := rfl

@[simp] theorem setBuffer_live (b : BufferId) (f : Buffer) (s : State) : (setBuffer b f s).live = s.live := rfl

@[simp] theorem setBuffer_log (b : BufferId) (f : Buffer) (s : State) : (setBuffer b f s).log = s.log := rfl

@[simp] theorem setBuffer_temp (b : BufferId) (f : Buffer) (s : State) : (setBuffer b f s).temp = s.temp := rfl

@[simp] theorem setBuffer_heat (b : BufferId) (f : Buffer) (s : State) : (setBuffer b f s).heat = s.heat := rfl

@[simp] theorem setBuffer_fan (b : BufferId) (f : Buffer) (s : State) : (setBuffer b f s).fan = s.fan := rfl

@[simp] theorem setBuffer_keypad (b : BufferId) (f : Buffer) (s : State) : (setBuffer b f s).keypad = s.keypad := rfl

@[simp] theorem setBuffer_keyUnit (b : BufferId) (f : Buffer) (s : State) : (setBuffer b f s).keyUnit = s.keyUnit := rfl

@[simp] theorem setBuffer_mgmt (b : BufferId) (f : Buffer) (s : State) : (setBuffer b f s).mgmt = s.mgmt := rfl

@[simp] theorem setBuffer_tables (b : BufferId) (f : Buffer) (s : State) : (setBuffer b f s).tables = s.tables := rfl

@[simp] theorem setBuffer_store (b : BufferId) (f : Buffer) (s : State) : (setBuffer b f s).store = s.store := rfl

@[simp] theorem setBuffer_counters (b : BufferId) (f : Buffer) (s : State) : (setBuffer b f s).counters = s.counters := rfl

/-! ### enqueueHost -/

@[simp] theorem enqueueHost_pending (b : BufferId) (s : State) : (enqueueHost b s).pending = s.pending := rfl

@[simp] theorem enqueueHost_clock (b : BufferId) (s : State) : (enqueueHost b s).clock = s.clock := rfl

@[simp] theorem enqueueHost_fieldPort (b : BufferId) (s : State) : (enqueueHost b s).fieldPort = s.fieldPort := rfl

@[simp] theorem enqueueHost_noticeNo (b : BufferId) (s : State) : (enqueueHost b s).noticeNo = s.noticeNo := rfl

@[simp] theorem enqueueHost_flags (b : BufferId) (s : State) : (enqueueHost b s).flags = s.flags := rfl

@[simp] theorem enqueueHost_exchanges (b : BufferId) (s : State) : (enqueueHost b s).exchanges = s.exchanges := rfl

@[simp] theorem enqueueHost_proxy (b : BufferId) (s : State) : (enqueueHost b s).proxy = s.proxy := rfl

@[simp] theorem enqueueHost_keyList (b : BufferId) (s : State) : (enqueueHost b s).keyList = s.keyList := rfl

@[simp] theorem enqueueHost_live (b : BufferId) (s : State) : (enqueueHost b s).live = s.live := rfl

@[simp] theorem enqueueHost_log (b : BufferId) (s : State) : (enqueueHost b s).log = s.log := rfl

@[simp] theorem enqueueHost_temp (b : BufferId) (s : State) : (enqueueHost b s).temp = s.temp := rfl

@[simp] theorem enqueueHost_heat (b : BufferId) (s : State) : (enqueueHost b s).heat = s.heat := rfl

@[simp] theorem enqueueHost_fan (b : BufferId) (s : State) : (enqueueHost b s).fan = s.fan := rfl

@[simp] theorem enqueueHost_keypad (b : BufferId) (s : State) : (enqueueHost b s).keypad = s.keypad := rfl

@[simp] theorem enqueueHost_keyUnit (b : BufferId) (s : State) : (enqueueHost b s).keyUnit = s.keyUnit := rfl

@[simp] theorem enqueueHost_mgmt (b : BufferId) (s : State) : (enqueueHost b s).mgmt = s.mgmt := rfl

@[simp] theorem enqueueHost_tables (b : BufferId) (s : State) : (enqueueHost b s).tables = s.tables := rfl

@[simp] theorem enqueueHost_store (b : BufferId) (s : State) : (enqueueHost b s).store = s.store := rfl

@[simp] theorem enqueueHost_counters (b : BufferId) (s : State) : (enqueueHost b s).counters = s.counters := rfl

/-! ### enqueueFieldBuffer -/

@[simp] theorem enqueueFieldBuffer_pending (b : BufferId) (s : State) : (enqueueFieldBuffer b s).pending = s.pending := rfl

@[simp] theorem enqueueFieldBuffer_clock (b : BufferId) (s : State) : (enqueueFieldBuffer b s).clock = s.clock := rfl

@[simp] theorem enqueueFieldBuffer_hostPort (b : BufferId) (s : State) : (enqueueFieldBuffer b s).hostPort = s.hostPort := rfl

@[simp] theorem enqueueFieldBuffer_noticeNo (b : BufferId) (s : State) : (enqueueFieldBuffer b s).noticeNo = s.noticeNo := rfl

@[simp] theorem enqueueFieldBuffer_flags (b : BufferId) (s : State) : (enqueueFieldBuffer b s).flags = s.flags := rfl

@[simp] theorem enqueueFieldBuffer_exchanges (b : BufferId) (s : State) : (enqueueFieldBuffer b s).exchanges = s.exchanges := rfl

@[simp] theorem enqueueFieldBuffer_proxy (b : BufferId) (s : State) : (enqueueFieldBuffer b s).proxy = s.proxy := rfl

@[simp] theorem enqueueFieldBuffer_keyList (b : BufferId) (s : State) : (enqueueFieldBuffer b s).keyList = s.keyList := rfl

@[simp] theorem enqueueFieldBuffer_live (b : BufferId) (s : State) : (enqueueFieldBuffer b s).live = s.live := rfl

@[simp] theorem enqueueFieldBuffer_log (b : BufferId) (s : State) : (enqueueFieldBuffer b s).log = s.log := rfl

@[simp] theorem enqueueFieldBuffer_temp (b : BufferId) (s : State) : (enqueueFieldBuffer b s).temp = s.temp := rfl

@[simp] theorem enqueueFieldBuffer_heat (b : BufferId) (s : State) : (enqueueFieldBuffer b s).heat = s.heat := rfl

@[simp] theorem enqueueFieldBuffer_fan (b : BufferId) (s : State) : (enqueueFieldBuffer b s).fan = s.fan := rfl

@[simp] theorem enqueueFieldBuffer_keypad (b : BufferId) (s : State) : (enqueueFieldBuffer b s).keypad = s.keypad := rfl

@[simp] theorem enqueueFieldBuffer_keyUnit (b : BufferId) (s : State) : (enqueueFieldBuffer b s).keyUnit = s.keyUnit := rfl

@[simp] theorem enqueueFieldBuffer_mgmt (b : BufferId) (s : State) : (enqueueFieldBuffer b s).mgmt = s.mgmt := rfl

@[simp] theorem enqueueFieldBuffer_tables (b : BufferId) (s : State) : (enqueueFieldBuffer b s).tables = s.tables := rfl

@[simp] theorem enqueueFieldBuffer_store (b : BufferId) (s : State) : (enqueueFieldBuffer b s).store = s.store := rfl

@[simp] theorem enqueueFieldBuffer_counters (b : BufferId) (s : State) : (enqueueFieldBuffer b s).counters = s.counters := rfl

/-! ### enqueueReply -/

@[simp] theorem enqueueReply_pending (d : Descriptor) (s : State) : (enqueueReply d s).pending = s.pending := rfl

@[simp] theorem enqueueReply_clock (d : Descriptor) (s : State) : (enqueueReply d s).clock = s.clock := rfl

@[simp] theorem enqueueReply_pool (d : Descriptor) (s : State) : (enqueueReply d s).pool = s.pool := rfl

@[simp] theorem enqueueReply_hostPort (d : Descriptor) (s : State) : (enqueueReply d s).hostPort = s.hostPort := rfl

@[simp] theorem enqueueReply_noticeNo (d : Descriptor) (s : State) : (enqueueReply d s).noticeNo = s.noticeNo := rfl

@[simp] theorem enqueueReply_flags (d : Descriptor) (s : State) : (enqueueReply d s).flags = s.flags := rfl

@[simp] theorem enqueueReply_exchanges (d : Descriptor) (s : State) : (enqueueReply d s).exchanges = s.exchanges := rfl

@[simp] theorem enqueueReply_proxy (d : Descriptor) (s : State) : (enqueueReply d s).proxy = s.proxy := rfl

@[simp] theorem enqueueReply_keyList (d : Descriptor) (s : State) : (enqueueReply d s).keyList = s.keyList := rfl

@[simp] theorem enqueueReply_live (d : Descriptor) (s : State) : (enqueueReply d s).live = s.live := rfl

@[simp] theorem enqueueReply_log (d : Descriptor) (s : State) : (enqueueReply d s).log = s.log := rfl

@[simp] theorem enqueueReply_temp (d : Descriptor) (s : State) : (enqueueReply d s).temp = s.temp := rfl

@[simp] theorem enqueueReply_heat (d : Descriptor) (s : State) : (enqueueReply d s).heat = s.heat := rfl

@[simp] theorem enqueueReply_fan (d : Descriptor) (s : State) : (enqueueReply d s).fan = s.fan := rfl

@[simp] theorem enqueueReply_keypad (d : Descriptor) (s : State) : (enqueueReply d s).keypad = s.keypad := rfl

@[simp] theorem enqueueReply_keyUnit (d : Descriptor) (s : State) : (enqueueReply d s).keyUnit = s.keyUnit := rfl

@[simp] theorem enqueueReply_mgmt (d : Descriptor) (s : State) : (enqueueReply d s).mgmt = s.mgmt := rfl

@[simp] theorem enqueueReply_tables (d : Descriptor) (s : State) : (enqueueReply d s).tables = s.tables := rfl

@[simp] theorem enqueueReply_store (d : Descriptor) (s : State) : (enqueueReply d s).store = s.store := rfl

@[simp] theorem enqueueReply_counters (d : Descriptor) (s : State) : (enqueueReply d s).counters = s.counters := rfl

/-! ### queueNotice -/

@[simp] theorem queueNotice_pending (b : BufferId) (topic : Byte) (payload : List Byte) (s : State) : (queueNotice b topic payload s).pending = s.pending := rfl

@[simp] theorem queueNotice_clock (b : BufferId) (topic : Byte) (payload : List Byte) (s : State) : (queueNotice b topic payload s).clock = s.clock := rfl

@[simp] theorem queueNotice_fieldPort (b : BufferId) (topic : Byte) (payload : List Byte) (s : State) : (queueNotice b topic payload s).fieldPort = s.fieldPort := rfl

@[simp] theorem queueNotice_flags (b : BufferId) (topic : Byte) (payload : List Byte) (s : State) : (queueNotice b topic payload s).flags = s.flags := rfl

@[simp] theorem queueNotice_exchanges (b : BufferId) (topic : Byte) (payload : List Byte) (s : State) : (queueNotice b topic payload s).exchanges = s.exchanges := rfl

@[simp] theorem queueNotice_proxy (b : BufferId) (topic : Byte) (payload : List Byte) (s : State) : (queueNotice b topic payload s).proxy = s.proxy := rfl

@[simp] theorem queueNotice_keyList (b : BufferId) (topic : Byte) (payload : List Byte) (s : State) : (queueNotice b topic payload s).keyList = s.keyList := rfl

@[simp] theorem queueNotice_live (b : BufferId) (topic : Byte) (payload : List Byte) (s : State) : (queueNotice b topic payload s).live = s.live := rfl

@[simp] theorem queueNotice_log (b : BufferId) (topic : Byte) (payload : List Byte) (s : State) : (queueNotice b topic payload s).log = s.log := rfl

@[simp] theorem queueNotice_temp (b : BufferId) (topic : Byte) (payload : List Byte) (s : State) : (queueNotice b topic payload s).temp = s.temp := rfl

@[simp] theorem queueNotice_heat (b : BufferId) (topic : Byte) (payload : List Byte) (s : State) : (queueNotice b topic payload s).heat = s.heat := rfl

@[simp] theorem queueNotice_fan (b : BufferId) (topic : Byte) (payload : List Byte) (s : State) : (queueNotice b topic payload s).fan = s.fan := rfl

@[simp] theorem queueNotice_keypad (b : BufferId) (topic : Byte) (payload : List Byte) (s : State) : (queueNotice b topic payload s).keypad = s.keypad := rfl

@[simp] theorem queueNotice_keyUnit (b : BufferId) (topic : Byte) (payload : List Byte) (s : State) : (queueNotice b topic payload s).keyUnit = s.keyUnit := rfl

@[simp] theorem queueNotice_mgmt (b : BufferId) (topic : Byte) (payload : List Byte) (s : State) : (queueNotice b topic payload s).mgmt = s.mgmt := rfl

@[simp] theorem queueNotice_tables (b : BufferId) (topic : Byte) (payload : List Byte) (s : State) : (queueNotice b topic payload s).tables = s.tables := rfl

@[simp] theorem queueNotice_store (b : BufferId) (topic : Byte) (payload : List Byte) (s : State) : (queueNotice b topic payload s).store = s.store := rfl

@[simp] theorem queueNotice_counters (b : BufferId) (topic : Byte) (payload : List Byte) (s : State) : (queueNotice b topic payload s).counters = s.counters := rfl

/-! ### patternFlags -/

@[simp] theorem patternFlags_pending (p : Half) (s : State) : (patternFlags p s).pending = s.pending := rfl

@[simp] theorem patternFlags_clock (p : Half) (s : State) : (patternFlags p s).clock = s.clock := rfl

@[simp] theorem patternFlags_pool (p : Half) (s : State) : (patternFlags p s).pool = s.pool := rfl

@[simp] theorem patternFlags_hostPort (p : Half) (s : State) : (patternFlags p s).hostPort = s.hostPort := rfl

@[simp] theorem patternFlags_fieldPort (p : Half) (s : State) : (patternFlags p s).fieldPort = s.fieldPort := rfl

@[simp] theorem patternFlags_noticeNo (p : Half) (s : State) : (patternFlags p s).noticeNo = s.noticeNo := rfl

@[simp] theorem patternFlags_exchanges (p : Half) (s : State) : (patternFlags p s).exchanges = s.exchanges := rfl

@[simp] theorem patternFlags_proxy (p : Half) (s : State) : (patternFlags p s).proxy = s.proxy := rfl

@[simp] theorem patternFlags_keyList (p : Half) (s : State) : (patternFlags p s).keyList = s.keyList := rfl

@[simp] theorem patternFlags_live (p : Half) (s : State) : (patternFlags p s).live = s.live := rfl

@[simp] theorem patternFlags_log (p : Half) (s : State) : (patternFlags p s).log = s.log := rfl

@[simp] theorem patternFlags_temp (p : Half) (s : State) : (patternFlags p s).temp = s.temp := rfl

@[simp] theorem patternFlags_heat (p : Half) (s : State) : (patternFlags p s).heat = s.heat := rfl

@[simp] theorem patternFlags_fan (p : Half) (s : State) : (patternFlags p s).fan = s.fan := rfl

@[simp] theorem patternFlags_keypad (p : Half) (s : State) : (patternFlags p s).keypad = s.keypad := rfl

@[simp] theorem patternFlags_keyUnit (p : Half) (s : State) : (patternFlags p s).keyUnit = s.keyUnit := rfl

@[simp] theorem patternFlags_mgmt (p : Half) (s : State) : (patternFlags p s).mgmt = s.mgmt := rfl

@[simp] theorem patternFlags_tables (p : Half) (s : State) : (patternFlags p s).tables = s.tables := rfl

@[simp] theorem patternFlags_store (p : Half) (s : State) : (patternFlags p s).store = s.store := rfl

@[simp] theorem patternFlags_counters (p : Half) (s : State) : (patternFlags p s).counters = s.counters := rfl

/-! ### setProxy -/

@[simp] theorem setProxy_pending (e : ProxyId) (r : ProxyRuntime) (s : State) : (setProxy e r s).pending = s.pending := rfl

@[simp] theorem setProxy_clock (e : ProxyId) (r : ProxyRuntime) (s : State) : (setProxy e r s).clock = s.clock := rfl

@[simp] theorem setProxy_pool (e : ProxyId) (r : ProxyRuntime) (s : State) : (setProxy e r s).pool = s.pool := rfl

@[simp] theorem setProxy_hostPort (e : ProxyId) (r : ProxyRuntime) (s : State) : (setProxy e r s).hostPort = s.hostPort := rfl

@[simp] theorem setProxy_fieldPort (e : ProxyId) (r : ProxyRuntime) (s : State) : (setProxy e r s).fieldPort = s.fieldPort := rfl

@[simp] theorem setProxy_noticeNo (e : ProxyId) (r : ProxyRuntime) (s : State) : (setProxy e r s).noticeNo = s.noticeNo := rfl

@[simp] theorem setProxy_flags (e : ProxyId) (r : ProxyRuntime) (s : State) : (setProxy e r s).flags = s.flags := rfl

@[simp] theorem setProxy_exchanges (e : ProxyId) (r : ProxyRuntime) (s : State) : (setProxy e r s).exchanges = s.exchanges := rfl

@[simp] theorem setProxy_keyList (e : ProxyId) (r : ProxyRuntime) (s : State) : (setProxy e r s).keyList = s.keyList := rfl

@[simp] theorem setProxy_live (e : ProxyId) (r : ProxyRuntime) (s : State) : (setProxy e r s).live = s.live := rfl

@[simp] theorem setProxy_log (e : ProxyId) (r : ProxyRuntime) (s : State) : (setProxy e r s).log = s.log := rfl

@[simp] theorem setProxy_temp (e : ProxyId) (r : ProxyRuntime) (s : State) : (setProxy e r s).temp = s.temp := rfl

@[simp] theorem setProxy_heat (e : ProxyId) (r : ProxyRuntime) (s : State) : (setProxy e r s).heat = s.heat := rfl

@[simp] theorem setProxy_fan (e : ProxyId) (r : ProxyRuntime) (s : State) : (setProxy e r s).fan = s.fan := rfl

@[simp] theorem setProxy_keypad (e : ProxyId) (r : ProxyRuntime) (s : State) : (setProxy e r s).keypad = s.keypad := rfl

@[simp] theorem setProxy_keyUnit (e : ProxyId) (r : ProxyRuntime) (s : State) : (setProxy e r s).keyUnit = s.keyUnit := rfl

@[simp] theorem setProxy_mgmt (e : ProxyId) (r : ProxyRuntime) (s : State) : (setProxy e r s).mgmt = s.mgmt := rfl

@[simp] theorem setProxy_tables (e : ProxyId) (r : ProxyRuntime) (s : State) : (setProxy e r s).tables = s.tables := rfl

@[simp] theorem setProxy_store (e : ProxyId) (r : ProxyRuntime) (s : State) : (setProxy e r s).store = s.store := rfl

@[simp] theorem setProxy_counters (e : ProxyId) (r : ProxyRuntime) (s : State) : (setProxy e r s).counters = s.counters := rfl

/-! ### pinHalf -/

@[simp] theorem pinHalf_pending (e : ProxyId) (h : HalfId) (s : State) : (pinHalf e h s).pending = s.pending := rfl

@[simp] theorem pinHalf_clock (e : ProxyId) (h : HalfId) (s : State) : (pinHalf e h s).clock = s.clock := rfl

@[simp] theorem pinHalf_pool (e : ProxyId) (h : HalfId) (s : State) : (pinHalf e h s).pool = s.pool := rfl

@[simp] theorem pinHalf_hostPort (e : ProxyId) (h : HalfId) (s : State) : (pinHalf e h s).hostPort = s.hostPort := rfl

@[simp] theorem pinHalf_fieldPort (e : ProxyId) (h : HalfId) (s : State) : (pinHalf e h s).fieldPort = s.fieldPort := rfl

@[simp] theorem pinHalf_noticeNo (e : ProxyId) (h : HalfId) (s : State) : (pinHalf e h s).noticeNo = s.noticeNo := rfl

@[simp] theorem pinHalf_flags (e : ProxyId) (h : HalfId) (s : State) : (pinHalf e h s).flags = s.flags := rfl

@[simp] theorem pinHalf_exchanges (e : ProxyId) (h : HalfId) (s : State) : (pinHalf e h s).exchanges = s.exchanges := rfl

@[simp] theorem pinHalf_keyList (e : ProxyId) (h : HalfId) (s : State) : (pinHalf e h s).keyList = s.keyList := rfl

@[simp] theorem pinHalf_live (e : ProxyId) (h : HalfId) (s : State) : (pinHalf e h s).live = s.live := rfl

@[simp] theorem pinHalf_log (e : ProxyId) (h : HalfId) (s : State) : (pinHalf e h s).log = s.log := rfl

@[simp] theorem pinHalf_temp (e : ProxyId) (h : HalfId) (s : State) : (pinHalf e h s).temp = s.temp := rfl

@[simp] theorem pinHalf_heat (e : ProxyId) (h : HalfId) (s : State) : (pinHalf e h s).heat = s.heat := rfl

@[simp] theorem pinHalf_fan (e : ProxyId) (h : HalfId) (s : State) : (pinHalf e h s).fan = s.fan := rfl

@[simp] theorem pinHalf_keypad (e : ProxyId) (h : HalfId) (s : State) : (pinHalf e h s).keypad = s.keypad := rfl

@[simp] theorem pinHalf_keyUnit (e : ProxyId) (h : HalfId) (s : State) : (pinHalf e h s).keyUnit = s.keyUnit := rfl

@[simp] theorem pinHalf_mgmt (e : ProxyId) (h : HalfId) (s : State) : (pinHalf e h s).mgmt = s.mgmt := rfl

@[simp] theorem pinHalf_tables (e : ProxyId) (h : HalfId) (s : State) : (pinHalf e h s).tables = s.tables := rfl

@[simp] theorem pinHalf_store (e : ProxyId) (h : HalfId) (s : State) : (pinHalf e h s).store = s.store := rfl

@[simp] theorem pinHalf_counters (e : ProxyId) (h : HalfId) (s : State) : (pinHalf e h s).counters = s.counters := rfl

/-! ### unpinHalf -/

@[simp] theorem unpinHalf_pending (e : ProxyId) (h : HalfId) (s : State) : (unpinHalf e h s).pending = s.pending := rfl

@[simp] theorem unpinHalf_clock (e : ProxyId) (h : HalfId) (s : State) : (unpinHalf e h s).clock = s.clock := rfl

@[simp] theorem unpinHalf_pool (e : ProxyId) (h : HalfId) (s : State) : (unpinHalf e h s).pool = s.pool := rfl

@[simp] theorem unpinHalf_hostPort (e : ProxyId) (h : HalfId) (s : State) : (unpinHalf e h s).hostPort = s.hostPort := rfl

@[simp] theorem unpinHalf_fieldPort (e : ProxyId) (h : HalfId) (s : State) : (unpinHalf e h s).fieldPort = s.fieldPort := rfl

@[simp] theorem unpinHalf_noticeNo (e : ProxyId) (h : HalfId) (s : State) : (unpinHalf e h s).noticeNo = s.noticeNo := rfl

@[simp] theorem unpinHalf_flags (e : ProxyId) (h : HalfId) (s : State) : (unpinHalf e h s).flags = s.flags := rfl

@[simp] theorem unpinHalf_exchanges (e : ProxyId) (h : HalfId) (s : State) : (unpinHalf e h s).exchanges = s.exchanges := rfl

@[simp] theorem unpinHalf_keyList (e : ProxyId) (h : HalfId) (s : State) : (unpinHalf e h s).keyList = s.keyList := rfl

@[simp] theorem unpinHalf_live (e : ProxyId) (h : HalfId) (s : State) : (unpinHalf e h s).live = s.live := rfl

@[simp] theorem unpinHalf_log (e : ProxyId) (h : HalfId) (s : State) : (unpinHalf e h s).log = s.log := rfl

@[simp] theorem unpinHalf_temp (e : ProxyId) (h : HalfId) (s : State) : (unpinHalf e h s).temp = s.temp := rfl

@[simp] theorem unpinHalf_heat (e : ProxyId) (h : HalfId) (s : State) : (unpinHalf e h s).heat = s.heat := rfl

@[simp] theorem unpinHalf_fan (e : ProxyId) (h : HalfId) (s : State) : (unpinHalf e h s).fan = s.fan := rfl

@[simp] theorem unpinHalf_keypad (e : ProxyId) (h : HalfId) (s : State) : (unpinHalf e h s).keypad = s.keypad := rfl

@[simp] theorem unpinHalf_keyUnit (e : ProxyId) (h : HalfId) (s : State) : (unpinHalf e h s).keyUnit = s.keyUnit := rfl

@[simp] theorem unpinHalf_mgmt (e : ProxyId) (h : HalfId) (s : State) : (unpinHalf e h s).mgmt = s.mgmt := rfl

@[simp] theorem unpinHalf_tables (e : ProxyId) (h : HalfId) (s : State) : (unpinHalf e h s).tables = s.tables := rfl

@[simp] theorem unpinHalf_store (e : ProxyId) (h : HalfId) (s : State) : (unpinHalf e h s).store = s.store := rfl

@[simp] theorem unpinHalf_counters (e : ProxyId) (h : HalfId) (s : State) : (unpinHalf e h s).counters = s.counters := rfl

/-! ### fillInactive -/

@[simp] theorem fillInactive_pending (e : ProxyId) (payload : List Byte) (t : Instant) (s : State) : (fillInactive e payload t s).pending = s.pending := rfl

@[simp] theorem fillInactive_clock (e : ProxyId) (payload : List Byte) (t : Instant) (s : State) : (fillInactive e payload t s).clock = s.clock := rfl

@[simp] theorem fillInactive_pool (e : ProxyId) (payload : List Byte) (t : Instant) (s : State) : (fillInactive e payload t s).pool = s.pool := rfl

@[simp] theorem fillInactive_hostPort (e : ProxyId) (payload : List Byte) (t : Instant) (s : State) : (fillInactive e payload t s).hostPort = s.hostPort := rfl

@[simp] theorem fillInactive_fieldPort (e : ProxyId) (payload : List Byte) (t : Instant) (s : State) : (fillInactive e payload t s).fieldPort = s.fieldPort := rfl

@[simp] theorem fillInactive_noticeNo (e : ProxyId) (payload : List Byte) (t : Instant) (s : State) : (fillInactive e payload t s).noticeNo = s.noticeNo := rfl

@[simp] theorem fillInactive_flags (e : ProxyId) (payload : List Byte) (t : Instant) (s : State) : (fillInactive e payload t s).flags = s.flags := rfl

@[simp] theorem fillInactive_exchanges (e : ProxyId) (payload : List Byte) (t : Instant) (s : State) : (fillInactive e payload t s).exchanges = s.exchanges := rfl

@[simp] theorem fillInactive_keyList (e : ProxyId) (payload : List Byte) (t : Instant) (s : State) : (fillInactive e payload t s).keyList = s.keyList := rfl

@[simp] theorem fillInactive_live (e : ProxyId) (payload : List Byte) (t : Instant) (s : State) : (fillInactive e payload t s).live = s.live := rfl

@[simp] theorem fillInactive_log (e : ProxyId) (payload : List Byte) (t : Instant) (s : State) : (fillInactive e payload t s).log = s.log := rfl

@[simp] theorem fillInactive_temp (e : ProxyId) (payload : List Byte) (t : Instant) (s : State) : (fillInactive e payload t s).temp = s.temp := rfl

@[simp] theorem fillInactive_heat (e : ProxyId) (payload : List Byte) (t : Instant) (s : State) : (fillInactive e payload t s).heat = s.heat := rfl

@[simp] theorem fillInactive_fan (e : ProxyId) (payload : List Byte) (t : Instant) (s : State) : (fillInactive e payload t s).fan = s.fan := rfl

@[simp] theorem fillInactive_keypad (e : ProxyId) (payload : List Byte) (t : Instant) (s : State) : (fillInactive e payload t s).keypad = s.keypad := rfl

@[simp] theorem fillInactive_keyUnit (e : ProxyId) (payload : List Byte) (t : Instant) (s : State) : (fillInactive e payload t s).keyUnit = s.keyUnit := rfl

@[simp] theorem fillInactive_mgmt (e : ProxyId) (payload : List Byte) (t : Instant) (s : State) : (fillInactive e payload t s).mgmt = s.mgmt := rfl

@[simp] theorem fillInactive_tables (e : ProxyId) (payload : List Byte) (t : Instant) (s : State) : (fillInactive e payload t s).tables = s.tables := rfl

@[simp] theorem fillInactive_store (e : ProxyId) (payload : List Byte) (t : Instant) (s : State) : (fillInactive e payload t s).store = s.store := rfl

@[simp] theorem fillInactive_counters (e : ProxyId) (payload : List Byte) (t : Instant) (s : State) : (fillInactive e payload t s).counters = s.counters := rfl

/-! ### undoKeyList -/

@[simp] theorem undoKeyList_pending (n : Nat) (o : Bool) (s : State) : (undoKeyList n o s).pending = s.pending := rfl

@[simp] theorem undoKeyList_clock (n : Nat) (o : Bool) (s : State) : (undoKeyList n o s).clock = s.clock := rfl

@[simp] theorem undoKeyList_pool (n : Nat) (o : Bool) (s : State) : (undoKeyList n o s).pool = s.pool := rfl

@[simp] theorem undoKeyList_hostPort (n : Nat) (o : Bool) (s : State) : (undoKeyList n o s).hostPort = s.hostPort := rfl

@[simp] theorem undoKeyList_fieldPort (n : Nat) (o : Bool) (s : State) : (undoKeyList n o s).fieldPort = s.fieldPort := rfl

@[simp] theorem undoKeyList_noticeNo (n : Nat) (o : Bool) (s : State) : (undoKeyList n o s).noticeNo = s.noticeNo := rfl

@[simp] theorem undoKeyList_flags (n : Nat) (o : Bool) (s : State) : (undoKeyList n o s).flags = s.flags := rfl

@[simp] theorem undoKeyList_exchanges (n : Nat) (o : Bool) (s : State) : (undoKeyList n o s).exchanges = s.exchanges := rfl

@[simp] theorem undoKeyList_proxy (n : Nat) (o : Bool) (s : State) : (undoKeyList n o s).proxy = s.proxy := rfl

@[simp] theorem undoKeyList_live (n : Nat) (o : Bool) (s : State) : (undoKeyList n o s).live = s.live := rfl

@[simp] theorem undoKeyList_log (n : Nat) (o : Bool) (s : State) : (undoKeyList n o s).log = s.log := rfl

@[simp] theorem undoKeyList_temp (n : Nat) (o : Bool) (s : State) : (undoKeyList n o s).temp = s.temp := rfl

@[simp] theorem undoKeyList_heat (n : Nat) (o : Bool) (s : State) : (undoKeyList n o s).heat = s.heat := rfl

@[simp] theorem undoKeyList_fan (n : Nat) (o : Bool) (s : State) : (undoKeyList n o s).fan = s.fan := rfl

@[simp] theorem undoKeyList_keypad (n : Nat) (o : Bool) (s : State) : (undoKeyList n o s).keypad = s.keypad := rfl

@[simp] theorem undoKeyList_keyUnit (n : Nat) (o : Bool) (s : State) : (undoKeyList n o s).keyUnit = s.keyUnit := rfl

@[simp] theorem undoKeyList_mgmt (n : Nat) (o : Bool) (s : State) : (undoKeyList n o s).mgmt = s.mgmt := rfl

@[simp] theorem undoKeyList_tables (n : Nat) (o : Bool) (s : State) : (undoKeyList n o s).tables = s.tables := rfl

@[simp] theorem undoKeyList_store (n : Nat) (o : Bool) (s : State) : (undoKeyList n o s).store = s.store := rfl

@[simp] theorem undoKeyList_counters (n : Nat) (o : Bool) (s : State) : (undoKeyList n o s).counters = s.counters := rfl

/-! ### keyListDelivered -/

@[simp] theorem keyListDelivered_pending (n : Nat) (evs : List (Byte × Byte)) (s : State) : (keyListDelivered n evs s).pending = s.pending := rfl

@[simp] theorem keyListDelivered_clock (n : Nat) (evs : List (Byte × Byte)) (s : State) : (keyListDelivered n evs s).clock = s.clock := rfl

@[simp] theorem keyListDelivered_pool (n : Nat) (evs : List (Byte × Byte)) (s : State) : (keyListDelivered n evs s).pool = s.pool := rfl

@[simp] theorem keyListDelivered_hostPort (n : Nat) (evs : List (Byte × Byte)) (s : State) : (keyListDelivered n evs s).hostPort = s.hostPort := rfl

@[simp] theorem keyListDelivered_fieldPort (n : Nat) (evs : List (Byte × Byte)) (s : State) : (keyListDelivered n evs s).fieldPort = s.fieldPort := rfl

@[simp] theorem keyListDelivered_noticeNo (n : Nat) (evs : List (Byte × Byte)) (s : State) : (keyListDelivered n evs s).noticeNo = s.noticeNo := rfl

@[simp] theorem keyListDelivered_flags (n : Nat) (evs : List (Byte × Byte)) (s : State) : (keyListDelivered n evs s).flags = s.flags := rfl

@[simp] theorem keyListDelivered_exchanges (n : Nat) (evs : List (Byte × Byte)) (s : State) : (keyListDelivered n evs s).exchanges = s.exchanges := rfl

@[simp] theorem keyListDelivered_proxy (n : Nat) (evs : List (Byte × Byte)) (s : State) : (keyListDelivered n evs s).proxy = s.proxy := rfl

@[simp] theorem keyListDelivered_live (n : Nat) (evs : List (Byte × Byte)) (s : State) : (keyListDelivered n evs s).live = s.live := rfl

@[simp] theorem keyListDelivered_log (n : Nat) (evs : List (Byte × Byte)) (s : State) : (keyListDelivered n evs s).log = s.log := rfl

@[simp] theorem keyListDelivered_temp (n : Nat) (evs : List (Byte × Byte)) (s : State) : (keyListDelivered n evs s).temp = s.temp := rfl

@[simp] theorem keyListDelivered_heat (n : Nat) (evs : List (Byte × Byte)) (s : State) : (keyListDelivered n evs s).heat = s.heat := rfl

@[simp] theorem keyListDelivered_fan (n : Nat) (evs : List (Byte × Byte)) (s : State) : (keyListDelivered n evs s).fan = s.fan := rfl

@[simp] theorem keyListDelivered_keypad (n : Nat) (evs : List (Byte × Byte)) (s : State) : (keyListDelivered n evs s).keypad = s.keypad := rfl

@[simp] theorem keyListDelivered_keyUnit (n : Nat) (evs : List (Byte × Byte)) (s : State) : (keyListDelivered n evs s).keyUnit = s.keyUnit := rfl

@[simp] theorem keyListDelivered_mgmt (n : Nat) (evs : List (Byte × Byte)) (s : State) : (keyListDelivered n evs s).mgmt = s.mgmt := rfl

@[simp] theorem keyListDelivered_tables (n : Nat) (evs : List (Byte × Byte)) (s : State) : (keyListDelivered n evs s).tables = s.tables := rfl

@[simp] theorem keyListDelivered_store (n : Nat) (evs : List (Byte × Byte)) (s : State) : (keyListDelivered n evs s).store = s.store := rfl

/-! ### emptyKeyList -/

@[simp] theorem emptyKeyList_pending (s : State) : (emptyKeyList s).pending = s.pending := rfl

@[simp] theorem emptyKeyList_clock (s : State) : (emptyKeyList s).clock = s.clock := rfl

@[simp] theorem emptyKeyList_pool (s : State) : (emptyKeyList s).pool = s.pool := rfl

@[simp] theorem emptyKeyList_hostPort (s : State) : (emptyKeyList s).hostPort = s.hostPort := rfl

@[simp] theorem emptyKeyList_fieldPort (s : State) : (emptyKeyList s).fieldPort = s.fieldPort := rfl

@[simp] theorem emptyKeyList_noticeNo (s : State) : (emptyKeyList s).noticeNo = s.noticeNo := rfl

@[simp] theorem emptyKeyList_flags (s : State) : (emptyKeyList s).flags = s.flags := rfl

@[simp] theorem emptyKeyList_exchanges (s : State) : (emptyKeyList s).exchanges = s.exchanges := rfl

@[simp] theorem emptyKeyList_proxy (s : State) : (emptyKeyList s).proxy = s.proxy := rfl

@[simp] theorem emptyKeyList_live (s : State) : (emptyKeyList s).live = s.live := rfl

@[simp] theorem emptyKeyList_log (s : State) : (emptyKeyList s).log = s.log := rfl

@[simp] theorem emptyKeyList_temp (s : State) : (emptyKeyList s).temp = s.temp := rfl

@[simp] theorem emptyKeyList_heat (s : State) : (emptyKeyList s).heat = s.heat := rfl

@[simp] theorem emptyKeyList_fan (s : State) : (emptyKeyList s).fan = s.fan := rfl

@[simp] theorem emptyKeyList_keypad (s : State) : (emptyKeyList s).keypad = s.keypad := rfl

@[simp] theorem emptyKeyList_keyUnit (s : State) : (emptyKeyList s).keyUnit = s.keyUnit := rfl

@[simp] theorem emptyKeyList_mgmt (s : State) : (emptyKeyList s).mgmt = s.mgmt := rfl

@[simp] theorem emptyKeyList_tables (s : State) : (emptyKeyList s).tables = s.tables := rfl

@[simp] theorem emptyKeyList_store (s : State) : (emptyKeyList s).store = s.store := rfl

/-! ### setExchange -/

@[simp] theorem setExchange_pending (i : ExchangeId) (x : Exchange) (s : State) : (setExchange i x s).pending = s.pending := rfl

@[simp] theorem setExchange_clock (i : ExchangeId) (x : Exchange) (s : State) : (setExchange i x s).clock = s.clock := rfl

@[simp] theorem setExchange_pool (i : ExchangeId) (x : Exchange) (s : State) : (setExchange i x s).pool = s.pool := rfl

@[simp] theorem setExchange_hostPort (i : ExchangeId) (x : Exchange) (s : State) : (setExchange i x s).hostPort = s.hostPort := rfl

@[simp] theorem setExchange_fieldPort (i : ExchangeId) (x : Exchange) (s : State) : (setExchange i x s).fieldPort = s.fieldPort := rfl

@[simp] theorem setExchange_noticeNo (i : ExchangeId) (x : Exchange) (s : State) : (setExchange i x s).noticeNo = s.noticeNo := rfl

@[simp] theorem setExchange_flags (i : ExchangeId) (x : Exchange) (s : State) : (setExchange i x s).flags = s.flags := rfl

@[simp] theorem setExchange_proxy (i : ExchangeId) (x : Exchange) (s : State) : (setExchange i x s).proxy = s.proxy := rfl

@[simp] theorem setExchange_keyList (i : ExchangeId) (x : Exchange) (s : State) : (setExchange i x s).keyList = s.keyList := rfl

@[simp] theorem setExchange_live (i : ExchangeId) (x : Exchange) (s : State) : (setExchange i x s).live = s.live := rfl

@[simp] theorem setExchange_log (i : ExchangeId) (x : Exchange) (s : State) : (setExchange i x s).log = s.log := rfl

@[simp] theorem setExchange_temp (i : ExchangeId) (x : Exchange) (s : State) : (setExchange i x s).temp = s.temp := rfl

@[simp] theorem setExchange_heat (i : ExchangeId) (x : Exchange) (s : State) : (setExchange i x s).heat = s.heat := rfl

@[simp] theorem setExchange_fan (i : ExchangeId) (x : Exchange) (s : State) : (setExchange i x s).fan = s.fan := rfl

@[simp] theorem setExchange_keypad (i : ExchangeId) (x : Exchange) (s : State) : (setExchange i x s).keypad = s.keypad := rfl

@[simp] theorem setExchange_keyUnit (i : ExchangeId) (x : Exchange) (s : State) : (setExchange i x s).keyUnit = s.keyUnit := rfl

@[simp] theorem setExchange_mgmt (i : ExchangeId) (x : Exchange) (s : State) : (setExchange i x s).mgmt = s.mgmt := rfl

@[simp] theorem setExchange_tables (i : ExchangeId) (x : Exchange) (s : State) : (setExchange i x s).tables = s.tables := rfl

@[simp] theorem setExchange_store (i : ExchangeId) (x : Exchange) (s : State) : (setExchange i x s).store = s.store := rfl

@[simp] theorem setExchange_counters (i : ExchangeId) (x : Exchange) (s : State) : (setExchange i x s).counters = s.counters := rfl

/-! ### answerExchange -/

@[simp] theorem answerExchange_pending (i : ExchangeId) (s : State) : (answerExchange i s).pending = s.pending := rfl

@[simp] theorem answerExchange_clock (i : ExchangeId) (s : State) : (answerExchange i s).clock = s.clock := rfl

@[simp] theorem answerExchange_pool (i : ExchangeId) (s : State) : (answerExchange i s).pool = s.pool := rfl

@[simp] theorem answerExchange_hostPort (i : ExchangeId) (s : State) : (answerExchange i s).hostPort = s.hostPort := rfl

@[simp] theorem answerExchange_fieldPort (i : ExchangeId) (s : State) : (answerExchange i s).fieldPort = s.fieldPort := rfl

@[simp] theorem answerExchange_noticeNo (i : ExchangeId) (s : State) : (answerExchange i s).noticeNo = s.noticeNo := rfl

@[simp] theorem answerExchange_flags (i : ExchangeId) (s : State) : (answerExchange i s).flags = s.flags := rfl

@[simp] theorem answerExchange_proxy (i : ExchangeId) (s : State) : (answerExchange i s).proxy = s.proxy := rfl

@[simp] theorem answerExchange_keyList (i : ExchangeId) (s : State) : (answerExchange i s).keyList = s.keyList := rfl

@[simp] theorem answerExchange_live (i : ExchangeId) (s : State) : (answerExchange i s).live = s.live := rfl

@[simp] theorem answerExchange_log (i : ExchangeId) (s : State) : (answerExchange i s).log = s.log := rfl

@[simp] theorem answerExchange_temp (i : ExchangeId) (s : State) : (answerExchange i s).temp = s.temp := rfl

@[simp] theorem answerExchange_heat (i : ExchangeId) (s : State) : (answerExchange i s).heat = s.heat := rfl

@[simp] theorem answerExchange_fan (i : ExchangeId) (s : State) : (answerExchange i s).fan = s.fan := rfl

@[simp] theorem answerExchange_keypad (i : ExchangeId) (s : State) : (answerExchange i s).keypad = s.keypad := rfl

@[simp] theorem answerExchange_keyUnit (i : ExchangeId) (s : State) : (answerExchange i s).keyUnit = s.keyUnit := rfl

@[simp] theorem answerExchange_mgmt (i : ExchangeId) (s : State) : (answerExchange i s).mgmt = s.mgmt := rfl

@[simp] theorem answerExchange_tables (i : ExchangeId) (s : State) : (answerExchange i s).tables = s.tables := rfl

@[simp] theorem answerExchange_store (i : ExchangeId) (s : State) : (answerExchange i s).store = s.store := rfl

/-! ### hit -/

@[simp] theorem hit_pending (i : RouteId) (s : State) : (hit i s).pending = s.pending := rfl

@[simp] theorem hit_clock (i : RouteId) (s : State) : (hit i s).clock = s.clock := rfl

@[simp] theorem hit_pool (i : RouteId) (s : State) : (hit i s).pool = s.pool := rfl

@[simp] theorem hit_hostPort (i : RouteId) (s : State) : (hit i s).hostPort = s.hostPort := rfl

@[simp] theorem hit_fieldPort (i : RouteId) (s : State) : (hit i s).fieldPort = s.fieldPort := rfl

@[simp] theorem hit_noticeNo (i : RouteId) (s : State) : (hit i s).noticeNo = s.noticeNo := rfl

@[simp] theorem hit_flags (i : RouteId) (s : State) : (hit i s).flags = s.flags := rfl

@[simp] theorem hit_exchanges (i : RouteId) (s : State) : (hit i s).exchanges = s.exchanges := rfl

@[simp] theorem hit_proxy (i : RouteId) (s : State) : (hit i s).proxy = s.proxy := rfl

@[simp] theorem hit_keyList (i : RouteId) (s : State) : (hit i s).keyList = s.keyList := rfl

@[simp] theorem hit_live (i : RouteId) (s : State) : (hit i s).live = s.live := rfl

@[simp] theorem hit_log (i : RouteId) (s : State) : (hit i s).log = s.log := rfl

@[simp] theorem hit_temp (i : RouteId) (s : State) : (hit i s).temp = s.temp := rfl

@[simp] theorem hit_heat (i : RouteId) (s : State) : (hit i s).heat = s.heat := rfl

@[simp] theorem hit_fan (i : RouteId) (s : State) : (hit i s).fan = s.fan := rfl

@[simp] theorem hit_keypad (i : RouteId) (s : State) : (hit i s).keypad = s.keypad := rfl

@[simp] theorem hit_keyUnit (i : RouteId) (s : State) : (hit i s).keyUnit = s.keyUnit := rfl

@[simp] theorem hit_mgmt (i : RouteId) (s : State) : (hit i s).mgmt = s.mgmt := rfl

@[simp] theorem hit_store (i : RouteId) (s : State) : (hit i s).store = s.store := rfl

@[simp] theorem hit_counters (i : RouteId) (s : State) : (hit i s).counters = s.counters := rfl

/-! ### writeLog -/

@[simp] theorem writeLog_pending (cause : RestartCause) (action : RestartAction) (counted : Bool) (t : Instant) (s : State) : (writeLog cause action counted t s).pending = s.pending := rfl

@[simp] theorem writeLog_clock (cause : RestartCause) (action : RestartAction) (counted : Bool) (t : Instant) (s : State) : (writeLog cause action counted t s).clock = s.clock := rfl

@[simp] theorem writeLog_pool (cause : RestartCause) (action : RestartAction) (counted : Bool) (t : Instant) (s : State) : (writeLog cause action counted t s).pool = s.pool := rfl

@[simp] theorem writeLog_hostPort (cause : RestartCause) (action : RestartAction) (counted : Bool) (t : Instant) (s : State) : (writeLog cause action counted t s).hostPort = s.hostPort := rfl

@[simp] theorem writeLog_fieldPort (cause : RestartCause) (action : RestartAction) (counted : Bool) (t : Instant) (s : State) : (writeLog cause action counted t s).fieldPort = s.fieldPort := rfl

@[simp] theorem writeLog_noticeNo (cause : RestartCause) (action : RestartAction) (counted : Bool) (t : Instant) (s : State) : (writeLog cause action counted t s).noticeNo = s.noticeNo := rfl

@[simp] theorem writeLog_flags (cause : RestartCause) (action : RestartAction) (counted : Bool) (t : Instant) (s : State) : (writeLog cause action counted t s).flags = s.flags := rfl

@[simp] theorem writeLog_exchanges (cause : RestartCause) (action : RestartAction) (counted : Bool) (t : Instant) (s : State) : (writeLog cause action counted t s).exchanges = s.exchanges := rfl

@[simp] theorem writeLog_proxy (cause : RestartCause) (action : RestartAction) (counted : Bool) (t : Instant) (s : State) : (writeLog cause action counted t s).proxy = s.proxy := rfl

@[simp] theorem writeLog_keyList (cause : RestartCause) (action : RestartAction) (counted : Bool) (t : Instant) (s : State) : (writeLog cause action counted t s).keyList = s.keyList := rfl

@[simp] theorem writeLog_live (cause : RestartCause) (action : RestartAction) (counted : Bool) (t : Instant) (s : State) : (writeLog cause action counted t s).live = s.live := rfl

@[simp] theorem writeLog_temp (cause : RestartCause) (action : RestartAction) (counted : Bool) (t : Instant) (s : State) : (writeLog cause action counted t s).temp = s.temp := rfl

@[simp] theorem writeLog_heat (cause : RestartCause) (action : RestartAction) (counted : Bool) (t : Instant) (s : State) : (writeLog cause action counted t s).heat = s.heat := rfl

@[simp] theorem writeLog_fan (cause : RestartCause) (action : RestartAction) (counted : Bool) (t : Instant) (s : State) : (writeLog cause action counted t s).fan = s.fan := rfl

@[simp] theorem writeLog_keypad (cause : RestartCause) (action : RestartAction) (counted : Bool) (t : Instant) (s : State) : (writeLog cause action counted t s).keypad = s.keypad := rfl

@[simp] theorem writeLog_keyUnit (cause : RestartCause) (action : RestartAction) (counted : Bool) (t : Instant) (s : State) : (writeLog cause action counted t s).keyUnit = s.keyUnit := rfl

@[simp] theorem writeLog_mgmt (cause : RestartCause) (action : RestartAction) (counted : Bool) (t : Instant) (s : State) : (writeLog cause action counted t s).mgmt = s.mgmt := rfl

@[simp] theorem writeLog_tables (cause : RestartCause) (action : RestartAction) (counted : Bool) (t : Instant) (s : State) : (writeLog cause action counted t s).tables = s.tables := rfl

@[simp] theorem writeLog_store (cause : RestartCause) (action : RestartAction) (counted : Bool) (t : Instant) (s : State) : (writeLog cause action counted t s).store = s.store := rfl

@[simp] theorem writeLog_counters (cause : RestartCause) (action : RestartAction) (counted : Bool) (t : Instant) (s : State) : (writeLog cause action counted t s).counters = s.counters := rfl

/-! ### flushKeyQueue -/

@[simp] theorem flushKeyQueue_pending (s : State) : (flushKeyQueue s).pending = s.pending := rfl

@[simp] theorem flushKeyQueue_clock (s : State) : (flushKeyQueue s).clock = s.clock := rfl

@[simp] theorem flushKeyQueue_pool (s : State) : (flushKeyQueue s).pool = s.pool := rfl

@[simp] theorem flushKeyQueue_hostPort (s : State) : (flushKeyQueue s).hostPort = s.hostPort := rfl

@[simp] theorem flushKeyQueue_fieldPort (s : State) : (flushKeyQueue s).fieldPort = s.fieldPort := rfl

@[simp] theorem flushKeyQueue_noticeNo (s : State) : (flushKeyQueue s).noticeNo = s.noticeNo := rfl

@[simp] theorem flushKeyQueue_flags (s : State) : (flushKeyQueue s).flags = s.flags := rfl

@[simp] theorem flushKeyQueue_exchanges (s : State) : (flushKeyQueue s).exchanges = s.exchanges := rfl

@[simp] theorem flushKeyQueue_proxy (s : State) : (flushKeyQueue s).proxy = s.proxy := rfl

@[simp] theorem flushKeyQueue_keyList (s : State) : (flushKeyQueue s).keyList = s.keyList := rfl

@[simp] theorem flushKeyQueue_live (s : State) : (flushKeyQueue s).live = s.live := rfl

@[simp] theorem flushKeyQueue_log (s : State) : (flushKeyQueue s).log = s.log := rfl

@[simp] theorem flushKeyQueue_temp (s : State) : (flushKeyQueue s).temp = s.temp := rfl

@[simp] theorem flushKeyQueue_heat (s : State) : (flushKeyQueue s).heat = s.heat := rfl

@[simp] theorem flushKeyQueue_fan (s : State) : (flushKeyQueue s).fan = s.fan := rfl

@[simp] theorem flushKeyQueue_keypad (s : State) : (flushKeyQueue s).keypad = s.keypad := rfl

@[simp] theorem flushKeyQueue_mgmt (s : State) : (flushKeyQueue s).mgmt = s.mgmt := rfl

@[simp] theorem flushKeyQueue_tables (s : State) : (flushKeyQueue s).tables = s.tables := rfl

@[simp] theorem flushKeyQueue_store (s : State) : (flushKeyQueue s).store = s.store := rfl

/-! ### startFallback -/

@[simp] theorem startFallback_pending (t : Instant) (s : State) : (startFallback t s).pending = s.pending := rfl

@[simp] theorem startFallback_clock (t : Instant) (s : State) : (startFallback t s).clock = s.clock := rfl

@[simp] theorem startFallback_pool (t : Instant) (s : State) : (startFallback t s).pool = s.pool := rfl

@[simp] theorem startFallback_hostPort (t : Instant) (s : State) : (startFallback t s).hostPort = s.hostPort := rfl

@[simp] theorem startFallback_fieldPort (t : Instant) (s : State) : (startFallback t s).fieldPort = s.fieldPort := rfl

@[simp] theorem startFallback_noticeNo (t : Instant) (s : State) : (startFallback t s).noticeNo = s.noticeNo := rfl

@[simp] theorem startFallback_flags (t : Instant) (s : State) : (startFallback t s).flags = s.flags := rfl

@[simp] theorem startFallback_exchanges (t : Instant) (s : State) : (startFallback t s).exchanges = s.exchanges := rfl

@[simp] theorem startFallback_proxy (t : Instant) (s : State) : (startFallback t s).proxy = s.proxy := rfl

@[simp] theorem startFallback_keyList (t : Instant) (s : State) : (startFallback t s).keyList = s.keyList := rfl

@[simp] theorem startFallback_live (t : Instant) (s : State) : (startFallback t s).live = s.live := rfl

@[simp] theorem startFallback_log (t : Instant) (s : State) : (startFallback t s).log = s.log := rfl

@[simp] theorem startFallback_heat (t : Instant) (s : State) : (startFallback t s).heat = s.heat := rfl

@[simp] theorem startFallback_fan (t : Instant) (s : State) : (startFallback t s).fan = s.fan := rfl

@[simp] theorem startFallback_keypad (t : Instant) (s : State) : (startFallback t s).keypad = s.keypad := rfl

@[simp] theorem startFallback_keyUnit (t : Instant) (s : State) : (startFallback t s).keyUnit = s.keyUnit := rfl

@[simp] theorem startFallback_mgmt (t : Instant) (s : State) : (startFallback t s).mgmt = s.mgmt := rfl

@[simp] theorem startFallback_tables (t : Instant) (s : State) : (startFallback t s).tables = s.tables := rfl

@[simp] theorem startFallback_store (t : Instant) (s : State) : (startFallback t s).store = s.store := rfl

@[simp] theorem startFallback_counters (t : Instant) (s : State) : (startFallback t s).counters = s.counters := rfl

/-! ### restartWindow -/

@[simp] theorem restartWindow_pending (t : Instant) (s : State) : (restartWindow t s).pending = s.pending := rfl

@[simp] theorem restartWindow_clock (t : Instant) (s : State) : (restartWindow t s).clock = s.clock := rfl

@[simp] theorem restartWindow_pool (t : Instant) (s : State) : (restartWindow t s).pool = s.pool := rfl

@[simp] theorem restartWindow_hostPort (t : Instant) (s : State) : (restartWindow t s).hostPort = s.hostPort := rfl

@[simp] theorem restartWindow_fieldPort (t : Instant) (s : State) : (restartWindow t s).fieldPort = s.fieldPort := rfl

@[simp] theorem restartWindow_noticeNo (t : Instant) (s : State) : (restartWindow t s).noticeNo = s.noticeNo := rfl

@[simp] theorem restartWindow_flags (t : Instant) (s : State) : (restartWindow t s).flags = s.flags := rfl

@[simp] theorem restartWindow_exchanges (t : Instant) (s : State) : (restartWindow t s).exchanges = s.exchanges := rfl

@[simp] theorem restartWindow_proxy (t : Instant) (s : State) : (restartWindow t s).proxy = s.proxy := rfl

@[simp] theorem restartWindow_keyList (t : Instant) (s : State) : (restartWindow t s).keyList = s.keyList := rfl

@[simp] theorem restartWindow_log (t : Instant) (s : State) : (restartWindow t s).log = s.log := rfl

@[simp] theorem restartWindow_temp (t : Instant) (s : State) : (restartWindow t s).temp = s.temp := rfl

@[simp] theorem restartWindow_heat (t : Instant) (s : State) : (restartWindow t s).heat = s.heat := rfl

@[simp] theorem restartWindow_fan (t : Instant) (s : State) : (restartWindow t s).fan = s.fan := rfl

@[simp] theorem restartWindow_keypad (t : Instant) (s : State) : (restartWindow t s).keypad = s.keypad := rfl

@[simp] theorem restartWindow_keyUnit (t : Instant) (s : State) : (restartWindow t s).keyUnit = s.keyUnit := rfl

@[simp] theorem restartWindow_mgmt (t : Instant) (s : State) : (restartWindow t s).mgmt = s.mgmt := rfl

@[simp] theorem restartWindow_tables (t : Instant) (s : State) : (restartWindow t s).tables = s.tables := rfl

@[simp] theorem restartWindow_store (t : Instant) (s : State) : (restartWindow t s).store = s.store := rfl

@[simp] theorem restartWindow_counters (t : Instant) (s : State) : (restartWindow t s).counters = s.counters := rfl

/-! ### ageBudget -/

@[simp] theorem ageBudget_pending (t : Instant) (s : State) : (ageBudget t s).pending = s.pending := rfl

@[simp] theorem ageBudget_clock (t : Instant) (s : State) : (ageBudget t s).clock = s.clock := rfl

@[simp] theorem ageBudget_pool (t : Instant) (s : State) : (ageBudget t s).pool = s.pool := rfl

@[simp] theorem ageBudget_hostPort (t : Instant) (s : State) : (ageBudget t s).hostPort = s.hostPort := rfl

@[simp] theorem ageBudget_fieldPort (t : Instant) (s : State) : (ageBudget t s).fieldPort = s.fieldPort := rfl

@[simp] theorem ageBudget_noticeNo (t : Instant) (s : State) : (ageBudget t s).noticeNo = s.noticeNo := rfl

@[simp] theorem ageBudget_flags (t : Instant) (s : State) : (ageBudget t s).flags = s.flags := rfl

@[simp] theorem ageBudget_exchanges (t : Instant) (s : State) : (ageBudget t s).exchanges = s.exchanges := rfl

@[simp] theorem ageBudget_proxy (t : Instant) (s : State) : (ageBudget t s).proxy = s.proxy := rfl

@[simp] theorem ageBudget_keyList (t : Instant) (s : State) : (ageBudget t s).keyList = s.keyList := rfl

@[simp] theorem ageBudget_log (t : Instant) (s : State) : (ageBudget t s).log = s.log := rfl

@[simp] theorem ageBudget_temp (t : Instant) (s : State) : (ageBudget t s).temp = s.temp := rfl

@[simp] theorem ageBudget_heat (t : Instant) (s : State) : (ageBudget t s).heat = s.heat := rfl

@[simp] theorem ageBudget_fan (t : Instant) (s : State) : (ageBudget t s).fan = s.fan := rfl

@[simp] theorem ageBudget_keypad (t : Instant) (s : State) : (ageBudget t s).keypad = s.keypad := rfl

@[simp] theorem ageBudget_keyUnit (t : Instant) (s : State) : (ageBudget t s).keyUnit = s.keyUnit := rfl

@[simp] theorem ageBudget_mgmt (t : Instant) (s : State) : (ageBudget t s).mgmt = s.mgmt := rfl

@[simp] theorem ageBudget_tables (t : Instant) (s : State) : (ageBudget t s).tables = s.tables := rfl

@[simp] theorem ageBudget_store (t : Instant) (s : State) : (ageBudget t s).store = s.store := rfl

/-! ### trimBudget -/

@[simp] theorem trimBudget_pending (s : State) : (trimBudget s).pending = s.pending := rfl

@[simp] theorem trimBudget_clock (s : State) : (trimBudget s).clock = s.clock := rfl

@[simp] theorem trimBudget_pool (s : State) : (trimBudget s).pool = s.pool := rfl

@[simp] theorem trimBudget_hostPort (s : State) : (trimBudget s).hostPort = s.hostPort := rfl

@[simp] theorem trimBudget_fieldPort (s : State) : (trimBudget s).fieldPort = s.fieldPort := rfl

@[simp] theorem trimBudget_noticeNo (s : State) : (trimBudget s).noticeNo = s.noticeNo := rfl

@[simp] theorem trimBudget_flags (s : State) : (trimBudget s).flags = s.flags := rfl

@[simp] theorem trimBudget_exchanges (s : State) : (trimBudget s).exchanges = s.exchanges := rfl

@[simp] theorem trimBudget_proxy (s : State) : (trimBudget s).proxy = s.proxy := rfl

@[simp] theorem trimBudget_keyList (s : State) : (trimBudget s).keyList = s.keyList := rfl

@[simp] theorem trimBudget_log (s : State) : (trimBudget s).log = s.log := rfl

@[simp] theorem trimBudget_temp (s : State) : (trimBudget s).temp = s.temp := rfl

@[simp] theorem trimBudget_heat (s : State) : (trimBudget s).heat = s.heat := rfl

@[simp] theorem trimBudget_fan (s : State) : (trimBudget s).fan = s.fan := rfl

@[simp] theorem trimBudget_keypad (s : State) : (trimBudget s).keypad = s.keypad := rfl

@[simp] theorem trimBudget_keyUnit (s : State) : (trimBudget s).keyUnit = s.keyUnit := rfl

@[simp] theorem trimBudget_mgmt (s : State) : (trimBudget s).mgmt = s.mgmt := rfl

@[simp] theorem trimBudget_tables (s : State) : (trimBudget s).tables = s.tables := rfl

@[simp] theorem trimBudget_store (s : State) : (trimBudget s).store = s.store := rfl

/-! ### setReadiness -/

@[simp] theorem setReadiness_pending (r : Readiness) (d : Option Timer) (s : State) : (setReadiness r d s).pending = s.pending := rfl

@[simp] theorem setReadiness_clock (r : Readiness) (d : Option Timer) (s : State) : (setReadiness r d s).clock = s.clock := rfl

@[simp] theorem setReadiness_pool (r : Readiness) (d : Option Timer) (s : State) : (setReadiness r d s).pool = s.pool := rfl

@[simp] theorem setReadiness_hostPort (r : Readiness) (d : Option Timer) (s : State) : (setReadiness r d s).hostPort = s.hostPort := rfl

@[simp] theorem setReadiness_fieldPort (r : Readiness) (d : Option Timer) (s : State) : (setReadiness r d s).fieldPort = s.fieldPort := rfl

@[simp] theorem setReadiness_noticeNo (r : Readiness) (d : Option Timer) (s : State) : (setReadiness r d s).noticeNo = s.noticeNo := rfl

@[simp] theorem setReadiness_flags (r : Readiness) (d : Option Timer) (s : State) : (setReadiness r d s).flags = s.flags := rfl

@[simp] theorem setReadiness_exchanges (r : Readiness) (d : Option Timer) (s : State) : (setReadiness r d s).exchanges = s.exchanges := rfl

@[simp] theorem setReadiness_proxy (r : Readiness) (d : Option Timer) (s : State) : (setReadiness r d s).proxy = s.proxy := rfl

@[simp] theorem setReadiness_keyList (r : Readiness) (d : Option Timer) (s : State) : (setReadiness r d s).keyList = s.keyList := rfl

@[simp] theorem setReadiness_live (r : Readiness) (d : Option Timer) (s : State) : (setReadiness r d s).live = s.live := rfl

@[simp] theorem setReadiness_log (r : Readiness) (d : Option Timer) (s : State) : (setReadiness r d s).log = s.log := rfl

@[simp] theorem setReadiness_heat (r : Readiness) (d : Option Timer) (s : State) : (setReadiness r d s).heat = s.heat := rfl

@[simp] theorem setReadiness_fan (r : Readiness) (d : Option Timer) (s : State) : (setReadiness r d s).fan = s.fan := rfl

@[simp] theorem setReadiness_keypad (r : Readiness) (d : Option Timer) (s : State) : (setReadiness r d s).keypad = s.keypad := rfl

@[simp] theorem setReadiness_keyUnit (r : Readiness) (d : Option Timer) (s : State) : (setReadiness r d s).keyUnit = s.keyUnit := rfl

@[simp] theorem setReadiness_mgmt (r : Readiness) (d : Option Timer) (s : State) : (setReadiness r d s).mgmt = s.mgmt := rfl

@[simp] theorem setReadiness_tables (r : Readiness) (d : Option Timer) (s : State) : (setReadiness r d s).tables = s.tables := rfl

@[simp] theorem setReadiness_store (r : Readiness) (d : Option Timer) (s : State) : (setReadiness r d s).store = s.store := rfl

@[simp] theorem setReadiness_counters (r : Readiness) (d : Option Timer) (s : State) : (setReadiness r d s).counters = s.counters := rfl

/-! ### setRecord -/

@[simp] theorem setRecord_pending (p : KeyPos) (r : Option KeyRecord) (s : State) : (setRecord p r s).pending = s.pending := rfl

@[simp] theorem setRecord_clock (p : KeyPos) (r : Option KeyRecord) (s : State) : (setRecord p r s).clock = s.clock := rfl

@[simp] theorem setRecord_pool (p : KeyPos) (r : Option KeyRecord) (s : State) : (setRecord p r s).pool = s.pool := rfl

@[simp] theorem setRecord_hostPort (p : KeyPos) (r : Option KeyRecord) (s : State) : (setRecord p r s).hostPort = s.hostPort := rfl

@[simp] theorem setRecord_fieldPort (p : KeyPos) (r : Option KeyRecord) (s : State) : (setRecord p r s).fieldPort = s.fieldPort := rfl

@[simp] theorem setRecord_noticeNo (p : KeyPos) (r : Option KeyRecord) (s : State) : (setRecord p r s).noticeNo = s.noticeNo := rfl

@[simp] theorem setRecord_flags (p : KeyPos) (r : Option KeyRecord) (s : State) : (setRecord p r s).flags = s.flags := rfl

@[simp] theorem setRecord_exchanges (p : KeyPos) (r : Option KeyRecord) (s : State) : (setRecord p r s).exchanges = s.exchanges := rfl

@[simp] theorem setRecord_proxy (p : KeyPos) (r : Option KeyRecord) (s : State) : (setRecord p r s).proxy = s.proxy := rfl

@[simp] theorem setRecord_keyList (p : KeyPos) (r : Option KeyRecord) (s : State) : (setRecord p r s).keyList = s.keyList := rfl

@[simp] theorem setRecord_live (p : KeyPos) (r : Option KeyRecord) (s : State) : (setRecord p r s).live = s.live := rfl

@[simp] theorem setRecord_log (p : KeyPos) (r : Option KeyRecord) (s : State) : (setRecord p r s).log = s.log := rfl

@[simp] theorem setRecord_temp (p : KeyPos) (r : Option KeyRecord) (s : State) : (setRecord p r s).temp = s.temp := rfl

@[simp] theorem setRecord_heat (p : KeyPos) (r : Option KeyRecord) (s : State) : (setRecord p r s).heat = s.heat := rfl

@[simp] theorem setRecord_fan (p : KeyPos) (r : Option KeyRecord) (s : State) : (setRecord p r s).fan = s.fan := rfl

@[simp] theorem setRecord_keypad (p : KeyPos) (r : Option KeyRecord) (s : State) : (setRecord p r s).keypad = s.keypad := rfl

@[simp] theorem setRecord_mgmt (p : KeyPos) (r : Option KeyRecord) (s : State) : (setRecord p r s).mgmt = s.mgmt := rfl

@[simp] theorem setRecord_tables (p : KeyPos) (r : Option KeyRecord) (s : State) : (setRecord p r s).tables = s.tables := rfl

@[simp] theorem setRecord_store (p : KeyPos) (r : Option KeyRecord) (s : State) : (setRecord p r s).store = s.store := rfl

@[simp] theorem setRecord_counters (p : KeyPos) (r : Option KeyRecord) (s : State) : (setRecord p r s).counters = s.counters := rfl

/-! ### setChord -/

@[simp] theorem setChord_pending (c : ChordId) (x : ChordState) (s : State) : (setChord c x s).pending = s.pending := rfl

@[simp] theorem setChord_clock (c : ChordId) (x : ChordState) (s : State) : (setChord c x s).clock = s.clock := rfl

@[simp] theorem setChord_pool (c : ChordId) (x : ChordState) (s : State) : (setChord c x s).pool = s.pool := rfl

@[simp] theorem setChord_hostPort (c : ChordId) (x : ChordState) (s : State) : (setChord c x s).hostPort = s.hostPort := rfl

@[simp] theorem setChord_fieldPort (c : ChordId) (x : ChordState) (s : State) : (setChord c x s).fieldPort = s.fieldPort := rfl

@[simp] theorem setChord_noticeNo (c : ChordId) (x : ChordState) (s : State) : (setChord c x s).noticeNo = s.noticeNo := rfl

@[simp] theorem setChord_flags (c : ChordId) (x : ChordState) (s : State) : (setChord c x s).flags = s.flags := rfl

@[simp] theorem setChord_exchanges (c : ChordId) (x : ChordState) (s : State) : (setChord c x s).exchanges = s.exchanges := rfl

@[simp] theorem setChord_proxy (c : ChordId) (x : ChordState) (s : State) : (setChord c x s).proxy = s.proxy := rfl

@[simp] theorem setChord_keyList (c : ChordId) (x : ChordState) (s : State) : (setChord c x s).keyList = s.keyList := rfl

@[simp] theorem setChord_live (c : ChordId) (x : ChordState) (s : State) : (setChord c x s).live = s.live := rfl

@[simp] theorem setChord_log (c : ChordId) (x : ChordState) (s : State) : (setChord c x s).log = s.log := rfl

@[simp] theorem setChord_temp (c : ChordId) (x : ChordState) (s : State) : (setChord c x s).temp = s.temp := rfl

@[simp] theorem setChord_heat (c : ChordId) (x : ChordState) (s : State) : (setChord c x s).heat = s.heat := rfl

@[simp] theorem setChord_fan (c : ChordId) (x : ChordState) (s : State) : (setChord c x s).fan = s.fan := rfl

@[simp] theorem setChord_keypad (c : ChordId) (x : ChordState) (s : State) : (setChord c x s).keypad = s.keypad := rfl

@[simp] theorem setChord_mgmt (c : ChordId) (x : ChordState) (s : State) : (setChord c x s).mgmt = s.mgmt := rfl

@[simp] theorem setChord_tables (c : ChordId) (x : ChordState) (s : State) : (setChord c x s).tables = s.tables := rfl

@[simp] theorem setChord_store (c : ChordId) (x : ChordState) (s : State) : (setChord c x s).store = s.store := rfl

@[simp] theorem setChord_counters (c : ChordId) (x : ChordState) (s : State) : (setChord c x s).counters = s.counters := rfl

/-! ### grantPermit -/

@[simp] theorem grantPermit_pending (t : Instant) (s : State) : (grantPermit t s).pending = s.pending := rfl

@[simp] theorem grantPermit_clock (t : Instant) (s : State) : (grantPermit t s).clock = s.clock := rfl

@[simp] theorem grantPermit_pool (t : Instant) (s : State) : (grantPermit t s).pool = s.pool := rfl

@[simp] theorem grantPermit_hostPort (t : Instant) (s : State) : (grantPermit t s).hostPort = s.hostPort := rfl

@[simp] theorem grantPermit_fieldPort (t : Instant) (s : State) : (grantPermit t s).fieldPort = s.fieldPort := rfl

@[simp] theorem grantPermit_noticeNo (t : Instant) (s : State) : (grantPermit t s).noticeNo = s.noticeNo := rfl

@[simp] theorem grantPermit_flags (t : Instant) (s : State) : (grantPermit t s).flags = s.flags := rfl

@[simp] theorem grantPermit_exchanges (t : Instant) (s : State) : (grantPermit t s).exchanges = s.exchanges := rfl

@[simp] theorem grantPermit_proxy (t : Instant) (s : State) : (grantPermit t s).proxy = s.proxy := rfl

@[simp] theorem grantPermit_keyList (t : Instant) (s : State) : (grantPermit t s).keyList = s.keyList := rfl

@[simp] theorem grantPermit_live (t : Instant) (s : State) : (grantPermit t s).live = s.live := rfl

@[simp] theorem grantPermit_log (t : Instant) (s : State) : (grantPermit t s).log = s.log := rfl

@[simp] theorem grantPermit_temp (t : Instant) (s : State) : (grantPermit t s).temp = s.temp := rfl

@[simp] theorem grantPermit_heat (t : Instant) (s : State) : (grantPermit t s).heat = s.heat := rfl

@[simp] theorem grantPermit_fan (t : Instant) (s : State) : (grantPermit t s).fan = s.fan := rfl

@[simp] theorem grantPermit_keypad (t : Instant) (s : State) : (grantPermit t s).keypad = s.keypad := rfl

@[simp] theorem grantPermit_keyUnit (t : Instant) (s : State) : (grantPermit t s).keyUnit = s.keyUnit := rfl

@[simp] theorem grantPermit_tables (t : Instant) (s : State) : (grantPermit t s).tables = s.tables := rfl

@[simp] theorem grantPermit_store (t : Instant) (s : State) : (grantPermit t s).store = s.store := rfl

@[simp] theorem grantPermit_counters (t : Instant) (s : State) : (grantPermit t s).counters = s.counters := rfl

/-! ### reportLateReply -/

@[simp] theorem reportLateReply_pending (s : State) : (reportLateReply s).pending = s.pending := rfl

@[simp] theorem reportLateReply_clock (s : State) : (reportLateReply s).clock = s.clock := rfl

@[simp] theorem reportLateReply_pool (s : State) : (reportLateReply s).pool = s.pool := rfl

@[simp] theorem reportLateReply_hostPort (s : State) : (reportLateReply s).hostPort = s.hostPort := rfl

@[simp] theorem reportLateReply_fieldPort (s : State) : (reportLateReply s).fieldPort = s.fieldPort := rfl

@[simp] theorem reportLateReply_noticeNo (s : State) : (reportLateReply s).noticeNo = s.noticeNo := rfl

@[simp] theorem reportLateReply_flags (s : State) : (reportLateReply s).flags = s.flags := rfl

@[simp] theorem reportLateReply_exchanges (s : State) : (reportLateReply s).exchanges = s.exchanges := rfl

@[simp] theorem reportLateReply_proxy (s : State) : (reportLateReply s).proxy = s.proxy := rfl

@[simp] theorem reportLateReply_keyList (s : State) : (reportLateReply s).keyList = s.keyList := rfl

@[simp] theorem reportLateReply_log (s : State) : (reportLateReply s).log = s.log := rfl

@[simp] theorem reportLateReply_temp (s : State) : (reportLateReply s).temp = s.temp := rfl

@[simp] theorem reportLateReply_heat (s : State) : (reportLateReply s).heat = s.heat := rfl

@[simp] theorem reportLateReply_fan (s : State) : (reportLateReply s).fan = s.fan := rfl

@[simp] theorem reportLateReply_keypad (s : State) : (reportLateReply s).keypad = s.keypad := rfl

@[simp] theorem reportLateReply_keyUnit (s : State) : (reportLateReply s).keyUnit = s.keyUnit := rfl

@[simp] theorem reportLateReply_mgmt (s : State) : (reportLateReply s).mgmt = s.mgmt := rfl

@[simp] theorem reportLateReply_tables (s : State) : (reportLateReply s).tables = s.tables := rfl

@[simp] theorem reportLateReply_store (s : State) : (reportLateReply s).store = s.store := rfl

@[simp] theorem reportLateReply_counters (s : State) : (reportLateReply s).counters = s.counters := rfl

/-! ### setBlocked -/

@[simp] theorem setBlocked_pending (c : Heater) (s : State) : (setBlocked c s).pending = s.pending := rfl

@[simp] theorem setBlocked_clock (c : Heater) (s : State) : (setBlocked c s).clock = s.clock := rfl

@[simp] theorem setBlocked_pool (c : Heater) (s : State) : (setBlocked c s).pool = s.pool := rfl

@[simp] theorem setBlocked_hostPort (c : Heater) (s : State) : (setBlocked c s).hostPort = s.hostPort := rfl

@[simp] theorem setBlocked_fieldPort (c : Heater) (s : State) : (setBlocked c s).fieldPort = s.fieldPort := rfl

@[simp] theorem setBlocked_noticeNo (c : Heater) (s : State) : (setBlocked c s).noticeNo = s.noticeNo := rfl

@[simp] theorem setBlocked_flags (c : Heater) (s : State) : (setBlocked c s).flags = s.flags := rfl

@[simp] theorem setBlocked_exchanges (c : Heater) (s : State) : (setBlocked c s).exchanges = s.exchanges := rfl

@[simp] theorem setBlocked_proxy (c : Heater) (s : State) : (setBlocked c s).proxy = s.proxy := rfl

@[simp] theorem setBlocked_keyList (c : Heater) (s : State) : (setBlocked c s).keyList = s.keyList := rfl

@[simp] theorem setBlocked_live (c : Heater) (s : State) : (setBlocked c s).live = s.live := rfl

@[simp] theorem setBlocked_log (c : Heater) (s : State) : (setBlocked c s).log = s.log := rfl

@[simp] theorem setBlocked_temp (c : Heater) (s : State) : (setBlocked c s).temp = s.temp := rfl

@[simp] theorem setBlocked_fan (c : Heater) (s : State) : (setBlocked c s).fan = s.fan := rfl

@[simp] theorem setBlocked_keypad (c : Heater) (s : State) : (setBlocked c s).keypad = s.keypad := rfl

@[simp] theorem setBlocked_keyUnit (c : Heater) (s : State) : (setBlocked c s).keyUnit = s.keyUnit := rfl

@[simp] theorem setBlocked_mgmt (c : Heater) (s : State) : (setBlocked c s).mgmt = s.mgmt := rfl

@[simp] theorem setBlocked_tables (c : Heater) (s : State) : (setBlocked c s).tables = s.tables := rfl

@[simp] theorem setBlocked_store (c : Heater) (s : State) : (setBlocked c s).store = s.store := rfl

/-! ### The updated fields -/

@[simp] theorem setBuffer_pool (b : BufferId) (f : Buffer) (s : State) :
    (setBuffer b f s).pool = s.pool.set b f := rfl

@[simp] theorem setExchange_exchanges (i : ExchangeId) (x : Exchange) (s : State) :
    (setExchange i x s).exchanges = s.exchanges.set i x := rfl

@[simp] theorem setProxy_proxy (e : ProxyId) (r : ProxyRuntime) (s : State) :
    (setProxy e r s).proxy = s.proxy.set e r := rfl

@[simp] theorem patternFlags_flags (p : Half) (s : State) : (patternFlags p s).flags = applyPattern p s.flags := rfl

@[simp] theorem hit_route (i : RouteId) (s : State) : (hit i s).tables.route = s.tables.route := rfl

@[simp] theorem hit_settings (i : RouteId) (s : State) : (hit i s).tables.settings = s.tables.settings := rfl

@[simp] theorem hit_proxy_setup (i : RouteId) (s : State) : (hit i s).tables.proxy = s.tables.proxy := rfl

@[simp] theorem enqueueHost_queue (b : BufferId) (s : State) :
    (enqueueHost b s).hostPort.queue = s.hostPort.queue ++ [b] := rfl

@[simp] theorem enqueueHost_sending (b : BufferId) (s : State) :
    (enqueueHost b s).hostPort.sending = s.hostPort.sending := rfl

@[simp] theorem enqueueFieldBuffer_queue (b : BufferId) (s : State) :
    (enqueueFieldBuffer b s).fieldPort.queue = s.fieldPort.queue ++ [.buffer b] := rfl

@[simp] theorem enqueueReply_queue (d : Descriptor) (s : State) :
    (enqueueReply d s).fieldPort.queue = s.fieldPort.queue ++ [.reply d] := rfl

@[simp] theorem queueNotice_queue (b : BufferId) (topic : Byte) (payload : List Byte) (s : State) :
    (queueNotice b topic payload s).hostPort.queue = s.hostPort.queue ++ [b] := rfl

@[simp] theorem queueNotice_noticeNo (b : BufferId) (topic : Byte) (payload : List Byte) (s : State) :
    (queueNotice b topic payload s).noticeNo = s.noticeNo + 1 := rfl

@[simp] theorem flushKeyQueue_queue (s : State) : (flushKeyQueue s).keyUnit.queue = [] := rfl

@[simp] theorem flushKeyQueue_lossPending (s : State) : (flushKeyQueue s).keyUnit.lossPending = false := rfl

@[simp] theorem flushKeyQueue_records (s : State) : (flushKeyQueue s).keyUnit.records = s.keyUnit.records := rfl

@[simp] theorem flushKeyQueue_chords (s : State) : (flushKeyQueue s).keyUnit.chords = s.keyUnit.chords := rfl

@[simp] theorem emptyKeyList_events (s : State) : (emptyKeyList s).keyList.events = [] := rfl

/-! ### A port's receiver -/

@[simp] theorem setRx_rx (p : Port) (r : Receiver) (s : State) : (setRx p r s).rx p = r := by cases p <;> rfl

@[simp] theorem setAssembler_assembler (p : Port) (a : Assembler) (s : State) :
    ((setAssembler p a s).rx p).assembler = a := by cases p <;> rfl

@[simp] theorem setRx_host_queue (p : Port) (r : Receiver) (s : State) :
    (setRx p r s).hostPort.queue = s.hostPort.queue := by cases p <;> rfl

@[simp] theorem setRx_field_queue (p : Port) (r : Receiver) (s : State) :
    (setRx p r s).fieldPort.queue = s.fieldPort.queue := by cases p <;> rfl

@[simp] theorem setRx_host_sending (p : Port) (r : Receiver) (s : State) :
    (setRx p r s).hostPort.sending = s.hostPort.sending := by cases p <;> rfl

@[simp] theorem setRx_field_sending (p : Port) (r : Receiver) (s : State) :
    (setRx p r s).fieldPort.sending = s.fieldPort.sending := by cases p <;> rfl

@[simp] theorem setRx_pending (p : Port) (r : Receiver) (s : State) : (setRx p r s).pending = s.pending := by cases p <;> rfl

@[simp] theorem setRx_clock (p : Port) (r : Receiver) (s : State) : (setRx p r s).clock = s.clock := by cases p <;> rfl

@[simp] theorem setRx_pool (p : Port) (r : Receiver) (s : State) : (setRx p r s).pool = s.pool := by cases p <;> rfl

@[simp] theorem setRx_noticeNo (p : Port) (r : Receiver) (s : State) : (setRx p r s).noticeNo = s.noticeNo := by cases p <;> rfl

@[simp] theorem setRx_flags (p : Port) (r : Receiver) (s : State) : (setRx p r s).flags = s.flags := by cases p <;> rfl

@[simp] theorem setRx_exchanges (p : Port) (r : Receiver) (s : State) : (setRx p r s).exchanges = s.exchanges := by cases p <;> rfl

@[simp] theorem setRx_proxy (p : Port) (r : Receiver) (s : State) : (setRx p r s).proxy = s.proxy := by cases p <;> rfl

@[simp] theorem setRx_keyList (p : Port) (r : Receiver) (s : State) : (setRx p r s).keyList = s.keyList := by cases p <;> rfl

@[simp] theorem setRx_live (p : Port) (r : Receiver) (s : State) : (setRx p r s).live = s.live := by cases p <;> rfl

@[simp] theorem setRx_log (p : Port) (r : Receiver) (s : State) : (setRx p r s).log = s.log := by cases p <;> rfl

@[simp] theorem setRx_temp (p : Port) (r : Receiver) (s : State) : (setRx p r s).temp = s.temp := by cases p <;> rfl

@[simp] theorem setRx_heat (p : Port) (r : Receiver) (s : State) : (setRx p r s).heat = s.heat := by cases p <;> rfl

@[simp] theorem setRx_fan (p : Port) (r : Receiver) (s : State) : (setRx p r s).fan = s.fan := by cases p <;> rfl

@[simp] theorem setRx_keypad (p : Port) (r : Receiver) (s : State) : (setRx p r s).keypad = s.keypad := by cases p <;> rfl

@[simp] theorem setRx_keyUnit (p : Port) (r : Receiver) (s : State) : (setRx p r s).keyUnit = s.keyUnit := by cases p <;> rfl

@[simp] theorem setRx_mgmt (p : Port) (r : Receiver) (s : State) : (setRx p r s).mgmt = s.mgmt := by cases p <;> rfl

@[simp] theorem setRx_tables (p : Port) (r : Receiver) (s : State) : (setRx p r s).tables = s.tables := by cases p <;> rfl

@[simp] theorem setRx_store (p : Port) (r : Receiver) (s : State) : (setRx p r s).store = s.store := by cases p <;> rfl

@[simp] theorem setRx_counters (p : Port) (r : Receiver) (s : State) : (setRx p r s).counters = s.counters := by cases p <;> rfl

@[simp] theorem setAssembler_pending (p : Port) (x : Assembler) (s : State) : (setAssembler p x s).pending = s.pending := by cases p <;> rfl

@[simp] theorem setAssembler_clock (p : Port) (x : Assembler) (s : State) : (setAssembler p x s).clock = s.clock := by cases p <;> rfl

@[simp] theorem setAssembler_pool (p : Port) (x : Assembler) (s : State) : (setAssembler p x s).pool = s.pool := by cases p <;> rfl

@[simp] theorem setAssembler_noticeNo (p : Port) (x : Assembler) (s : State) : (setAssembler p x s).noticeNo = s.noticeNo := by cases p <;> rfl

@[simp] theorem setAssembler_flags (p : Port) (x : Assembler) (s : State) : (setAssembler p x s).flags = s.flags := by cases p <;> rfl

@[simp] theorem setAssembler_exchanges (p : Port) (x : Assembler) (s : State) : (setAssembler p x s).exchanges = s.exchanges := by cases p <;> rfl

@[simp] theorem setAssembler_proxy (p : Port) (x : Assembler) (s : State) : (setAssembler p x s).proxy = s.proxy := by cases p <;> rfl

@[simp] theorem setAssembler_keyList (p : Port) (x : Assembler) (s : State) : (setAssembler p x s).keyList = s.keyList := by cases p <;> rfl

@[simp] theorem setAssembler_live (p : Port) (x : Assembler) (s : State) : (setAssembler p x s).live = s.live := by cases p <;> rfl

@[simp] theorem setAssembler_log (p : Port) (x : Assembler) (s : State) : (setAssembler p x s).log = s.log := by cases p <;> rfl

@[simp] theorem setAssembler_temp (p : Port) (x : Assembler) (s : State) : (setAssembler p x s).temp = s.temp := by cases p <;> rfl

@[simp] theorem setAssembler_heat (p : Port) (x : Assembler) (s : State) : (setAssembler p x s).heat = s.heat := by cases p <;> rfl

@[simp] theorem setAssembler_fan (p : Port) (x : Assembler) (s : State) : (setAssembler p x s).fan = s.fan := by cases p <;> rfl

@[simp] theorem setAssembler_keypad (p : Port) (x : Assembler) (s : State) : (setAssembler p x s).keypad = s.keypad := by cases p <;> rfl

@[simp] theorem setAssembler_keyUnit (p : Port) (x : Assembler) (s : State) : (setAssembler p x s).keyUnit = s.keyUnit := by cases p <;> rfl

@[simp] theorem setAssembler_mgmt (p : Port) (x : Assembler) (s : State) : (setAssembler p x s).mgmt = s.mgmt := by cases p <;> rfl

@[simp] theorem setAssembler_tables (p : Port) (x : Assembler) (s : State) : (setAssembler p x s).tables = s.tables := by cases p <;> rfl

@[simp] theorem setAssembler_store (p : Port) (x : Assembler) (s : State) : (setAssembler p x s).store = s.store := by cases p <;> rfl

@[simp] theorem setAssembler_counters (p : Port) (x : Assembler) (s : State) : (setAssembler p x s).counters = s.counters := by cases p <;> rfl

@[simp] theorem restartSilence_pending (p : Port) (s : State) : (restartSilence p s).pending = s.pending := by cases p <;> rfl

@[simp] theorem restartSilence_clock (p : Port) (s : State) : (restartSilence p s).clock = s.clock := by cases p <;> rfl

@[simp] theorem restartSilence_pool (p : Port) (s : State) : (restartSilence p s).pool = s.pool := by cases p <;> rfl

@[simp] theorem restartSilence_noticeNo (p : Port) (s : State) : (restartSilence p s).noticeNo = s.noticeNo := by cases p <;> rfl

@[simp] theorem restartSilence_flags (p : Port) (s : State) : (restartSilence p s).flags = s.flags := by cases p <;> rfl

@[simp] theorem restartSilence_exchanges (p : Port) (s : State) : (restartSilence p s).exchanges = s.exchanges := by cases p <;> rfl

@[simp] theorem restartSilence_proxy (p : Port) (s : State) : (restartSilence p s).proxy = s.proxy := by cases p <;> rfl

@[simp] theorem restartSilence_keyList (p : Port) (s : State) : (restartSilence p s).keyList = s.keyList := by cases p <;> rfl

@[simp] theorem restartSilence_live (p : Port) (s : State) : (restartSilence p s).live = s.live := by cases p <;> rfl

@[simp] theorem restartSilence_log (p : Port) (s : State) : (restartSilence p s).log = s.log := by cases p <;> rfl

@[simp] theorem restartSilence_temp (p : Port) (s : State) : (restartSilence p s).temp = s.temp := by cases p <;> rfl

@[simp] theorem restartSilence_heat (p : Port) (s : State) : (restartSilence p s).heat = s.heat := by cases p <;> rfl

@[simp] theorem restartSilence_fan (p : Port) (s : State) : (restartSilence p s).fan = s.fan := by cases p <;> rfl

@[simp] theorem restartSilence_keypad (p : Port) (s : State) : (restartSilence p s).keypad = s.keypad := by cases p <;> rfl

@[simp] theorem restartSilence_keyUnit (p : Port) (s : State) : (restartSilence p s).keyUnit = s.keyUnit := by cases p <;> rfl

@[simp] theorem restartSilence_mgmt (p : Port) (s : State) : (restartSilence p s).mgmt = s.mgmt := by cases p <;> rfl

@[simp] theorem restartSilence_tables (p : Port) (s : State) : (restartSilence p s).tables = s.tables := by cases p <;> rfl

@[simp] theorem restartSilence_store (p : Port) (s : State) : (restartSilence p s).store = s.store := by cases p <;> rfl

@[simp] theorem restartSilence_counters (p : Port) (s : State) : (restartSilence p s).counters = s.counters := by cases p <;> rfl

/-! ### endSilence -/

@[simp] theorem endSilence_pending (p : Port) (s : State) : (endSilence p s).pending = s.pending := by cases p <;> rfl

@[simp] theorem endSilence_clock (p : Port) (s : State) : (endSilence p s).clock = s.clock := by cases p <;> rfl

@[simp] theorem endSilence_pool (p : Port) (s : State) : (endSilence p s).pool = s.pool := by cases p <;> rfl

@[simp] theorem endSilence_noticeNo (p : Port) (s : State) : (endSilence p s).noticeNo = s.noticeNo := by cases p <;> rfl

@[simp] theorem endSilence_flags (p : Port) (s : State) : (endSilence p s).flags = s.flags := by cases p <;> rfl

@[simp] theorem endSilence_exchanges (p : Port) (s : State) : (endSilence p s).exchanges = s.exchanges := by cases p <;> rfl

@[simp] theorem endSilence_proxy (p : Port) (s : State) : (endSilence p s).proxy = s.proxy := by cases p <;> rfl

@[simp] theorem endSilence_keyList (p : Port) (s : State) : (endSilence p s).keyList = s.keyList := by cases p <;> rfl

@[simp] theorem endSilence_live (p : Port) (s : State) : (endSilence p s).live = s.live := by cases p <;> rfl

@[simp] theorem endSilence_log (p : Port) (s : State) : (endSilence p s).log = s.log := by cases p <;> rfl

@[simp] theorem endSilence_temp (p : Port) (s : State) : (endSilence p s).temp = s.temp := by cases p <;> rfl

@[simp] theorem endSilence_heat (p : Port) (s : State) : (endSilence p s).heat = s.heat := by cases p <;> rfl

@[simp] theorem endSilence_fan (p : Port) (s : State) : (endSilence p s).fan = s.fan := by cases p <;> rfl

@[simp] theorem endSilence_keypad (p : Port) (s : State) : (endSilence p s).keypad = s.keypad := by cases p <;> rfl

@[simp] theorem endSilence_keyUnit (p : Port) (s : State) : (endSilence p s).keyUnit = s.keyUnit := by cases p <;> rfl

@[simp] theorem endSilence_mgmt (p : Port) (s : State) : (endSilence p s).mgmt = s.mgmt := by cases p <;> rfl

@[simp] theorem endSilence_tables (p : Port) (s : State) : (endSilence p s).tables = s.tables := by cases p <;> rfl

@[simp] theorem endSilence_store (p : Port) (s : State) : (endSilence p s).store = s.store := by cases p <;> rfl

@[simp] theorem endSilence_counters (p : Port) (s : State) : (endSilence p s).counters = s.counters := by cases p <;> rfl

end Sys2Proof.Machine
end

