-- ==== Sys2Proof/Laws/Ops.lean ====
section
/-! SUPPORT. What each conditional operation of the machine leaves alone, field by field: each operation's fields
that can change are the ones without a lemma. -/

namespace Sys2Proof.Machine

/-! ### composeKeyNotice -/

@[simp] theorem composeKeyNotice_pending (s : State) : (composeKeyNotice s).pending = s.pending := by
  unfold composeKeyNotice; split <;> rfl

@[simp] theorem composeKeyNotice_clock (s : State) : (composeKeyNotice s).clock = s.clock := by
  unfold composeKeyNotice; split <;> rfl

@[simp] theorem composeKeyNotice_fieldPort (s : State) : (composeKeyNotice s).fieldPort = s.fieldPort := by
  unfold composeKeyNotice; split <;> rfl

@[simp] theorem composeKeyNotice_flags (s : State) : (composeKeyNotice s).flags = s.flags := by
  unfold composeKeyNotice; split <;> rfl

@[simp] theorem composeKeyNotice_exchanges (s : State) : (composeKeyNotice s).exchanges = s.exchanges := by
  unfold composeKeyNotice; split <;> rfl

@[simp] theorem composeKeyNotice_proxy (s : State) : (composeKeyNotice s).proxy = s.proxy := by
  unfold composeKeyNotice; split <;> rfl

@[simp] theorem composeKeyNotice_keyList (s : State) : (composeKeyNotice s).keyList = s.keyList := by
  unfold composeKeyNotice; split <;> rfl

@[simp] theorem composeKeyNotice_live (s : State) : (composeKeyNotice s).live = s.live := by
  unfold composeKeyNotice; split <;> rfl

@[simp] theorem composeKeyNotice_log (s : State) : (composeKeyNotice s).log = s.log := by
  unfold composeKeyNotice; split <;> rfl

@[simp] theorem composeKeyNotice_temp (s : State) : (composeKeyNotice s).temp = s.temp := by
  unfold composeKeyNotice; split <;> rfl

@[simp] theorem composeKeyNotice_heat (s : State) : (composeKeyNotice s).heat = s.heat := by
  unfold composeKeyNotice; split <;> rfl

@[simp] theorem composeKeyNotice_fan (s : State) : (composeKeyNotice s).fan = s.fan := by
  unfold composeKeyNotice; split <;> rfl

@[simp] theorem composeKeyNotice_keypad (s : State) : (composeKeyNotice s).keypad = s.keypad := by
  unfold composeKeyNotice; split <;> rfl

@[simp] theorem composeKeyNotice_mgmt (s : State) : (composeKeyNotice s).mgmt = s.mgmt := by
  unfold composeKeyNotice; split <;> rfl

@[simp] theorem composeKeyNotice_tables (s : State) : (composeKeyNotice s).tables = s.tables := by
  unfold composeKeyNotice; split <;> rfl

@[simp] theorem composeKeyNotice_store (s : State) : (composeKeyNotice s).store = s.store := by
  unfold composeKeyNotice; split <;> rfl

/-! ### keyNoticeTurns -/

@[simp] theorem keyNoticeTurns_pending (n : Nat) (s : State) : (keyNoticeTurns n s).pending = s.pending := by
  induction n generalizing s with
  | zero => rfl
  | succ n ih => simp only [keyNoticeTurns]; split <;> simp [ih]

@[simp] theorem keyNoticeTurns_clock (n : Nat) (s : State) : (keyNoticeTurns n s).clock = s.clock := by
  induction n generalizing s with
  | zero => rfl
  | succ n ih => simp only [keyNoticeTurns]; split <;> simp [ih]

@[simp] theorem keyNoticeTurns_fieldPort (n : Nat) (s : State) : (keyNoticeTurns n s).fieldPort = s.fieldPort := by
  induction n generalizing s with
  | zero => rfl
  | succ n ih => simp only [keyNoticeTurns]; split <;> simp [ih]

@[simp] theorem keyNoticeTurns_flags (n : Nat) (s : State) : (keyNoticeTurns n s).flags = s.flags := by
  induction n generalizing s with
  | zero => rfl
  | succ n ih => simp only [keyNoticeTurns]; split <;> simp [ih]

@[simp] theorem keyNoticeTurns_exchanges (n : Nat) (s : State) : (keyNoticeTurns n s).exchanges = s.exchanges := by
  induction n generalizing s with
  | zero => rfl
  | succ n ih => simp only [keyNoticeTurns]; split <;> simp [ih]

@[simp] theorem keyNoticeTurns_proxy (n : Nat) (s : State) : (keyNoticeTurns n s).proxy = s.proxy := by
  induction n generalizing s with
  | zero => rfl
  | succ n ih => simp only [keyNoticeTurns]; split <;> simp [ih]

@[simp] theorem keyNoticeTurns_keyList (n : Nat) (s : State) : (keyNoticeTurns n s).keyList = s.keyList := by
  induction n generalizing s with
  | zero => rfl
  | succ n ih => simp only [keyNoticeTurns]; split <;> simp [ih]

@[simp] theorem keyNoticeTurns_live (n : Nat) (s : State) : (keyNoticeTurns n s).live = s.live := by
  induction n generalizing s with
  | zero => rfl
  | succ n ih => simp only [keyNoticeTurns]; split <;> simp [ih]

@[simp] theorem keyNoticeTurns_log (n : Nat) (s : State) : (keyNoticeTurns n s).log = s.log := by
  induction n generalizing s with
  | zero => rfl
  | succ n ih => simp only [keyNoticeTurns]; split <;> simp [ih]

@[simp] theorem keyNoticeTurns_temp (n : Nat) (s : State) : (keyNoticeTurns n s).temp = s.temp := by
  induction n generalizing s with
  | zero => rfl
  | succ n ih => simp only [keyNoticeTurns]; split <;> simp [ih]

@[simp] theorem keyNoticeTurns_heat (n : Nat) (s : State) : (keyNoticeTurns n s).heat = s.heat := by
  induction n generalizing s with
  | zero => rfl
  | succ n ih => simp only [keyNoticeTurns]; split <;> simp [ih]

@[simp] theorem keyNoticeTurns_fan (n : Nat) (s : State) : (keyNoticeTurns n s).fan = s.fan := by
  induction n generalizing s with
  | zero => rfl
  | succ n ih => simp only [keyNoticeTurns]; split <;> simp [ih]

@[simp] theorem keyNoticeTurns_keypad (n : Nat) (s : State) : (keyNoticeTurns n s).keypad = s.keypad := by
  induction n generalizing s with
  | zero => rfl
  | succ n ih => simp only [keyNoticeTurns]; split <;> simp [ih]

@[simp] theorem keyNoticeTurns_mgmt (n : Nat) (s : State) : (keyNoticeTurns n s).mgmt = s.mgmt := by
  induction n generalizing s with
  | zero => rfl
  | succ n ih => simp only [keyNoticeTurns]; split <;> simp [ih]

@[simp] theorem keyNoticeTurns_tables (n : Nat) (s : State) : (keyNoticeTurns n s).tables = s.tables := by
  induction n generalizing s with
  | zero => rfl
  | succ n ih => simp only [keyNoticeTurns]; split <;> simp [ih]

@[simp] theorem keyNoticeTurns_store (n : Nat) (s : State) : (keyNoticeTurns n s).store = s.store := by
  induction n generalizing s with
  | zero => rfl
  | succ n ih => simp only [keyNoticeTurns]; split <;> simp [ih]

/-! ### composeKeyNotices -/

@[simp] theorem composeKeyNotices_pending (s : State) : (composeKeyNotices s).pending = s.pending := by
  simp [composeKeyNotices]

@[simp] theorem composeKeyNotices_clock (s : State) : (composeKeyNotices s).clock = s.clock := by
  simp [composeKeyNotices]

@[simp] theorem composeKeyNotices_fieldPort (s : State) : (composeKeyNotices s).fieldPort = s.fieldPort := by
  simp [composeKeyNotices]

@[simp] theorem composeKeyNotices_flags (s : State) : (composeKeyNotices s).flags = s.flags := by
  simp [composeKeyNotices]

@[simp] theorem composeKeyNotices_exchanges (s : State) : (composeKeyNotices s).exchanges = s.exchanges := by
  simp [composeKeyNotices]

@[simp] theorem composeKeyNotices_proxy (s : State) : (composeKeyNotices s).proxy = s.proxy := by
  simp [composeKeyNotices]

@[simp] theorem composeKeyNotices_keyList (s : State) : (composeKeyNotices s).keyList = s.keyList := by
  simp [composeKeyNotices]

@[simp] theorem composeKeyNotices_live (s : State) : (composeKeyNotices s).live = s.live := by
  simp [composeKeyNotices]

@[simp] theorem composeKeyNotices_log (s : State) : (composeKeyNotices s).log = s.log := by simp [composeKeyNotices]

@[simp] theorem composeKeyNotices_temp (s : State) : (composeKeyNotices s).temp = s.temp := by
  simp [composeKeyNotices]

@[simp] theorem composeKeyNotices_heat (s : State) : (composeKeyNotices s).heat = s.heat := by
  simp [composeKeyNotices]

@[simp] theorem composeKeyNotices_fan (s : State) : (composeKeyNotices s).fan = s.fan := by simp [composeKeyNotices]

@[simp] theorem composeKeyNotices_keypad (s : State) : (composeKeyNotices s).keypad = s.keypad := by
  simp [composeKeyNotices]

@[simp] theorem composeKeyNotices_mgmt (s : State) : (composeKeyNotices s).mgmt = s.mgmt := by
  simp [composeKeyNotices]

@[simp] theorem composeKeyNotices_tables (s : State) : (composeKeyNotices s).tables = s.tables := by
  simp [composeKeyNotices]

@[simp] theorem composeKeyNotices_store (s : State) : (composeKeyNotices s).store = s.store := by
  simp [composeKeyNotices]

/-! ### releaseBuffer -/

@[simp] theorem releaseBuffer_pending (b : BufferId) (s : State) : (releaseBuffer b s).pending = s.pending := by
  simp [releaseBuffer]

@[simp] theorem releaseBuffer_clock (b : BufferId) (s : State) : (releaseBuffer b s).clock = s.clock := by
  simp [releaseBuffer]

@[simp] theorem releaseBuffer_fieldPort (b : BufferId) (s : State) :
    (releaseBuffer b s).fieldPort = s.fieldPort := by
  simp [releaseBuffer]

@[simp] theorem releaseBuffer_flags (b : BufferId) (s : State) : (releaseBuffer b s).flags = s.flags := by
  simp [releaseBuffer]

@[simp] theorem releaseBuffer_exchanges (b : BufferId) (s : State) :
    (releaseBuffer b s).exchanges = s.exchanges := by
  simp [releaseBuffer]

@[simp] theorem releaseBuffer_proxy (b : BufferId) (s : State) : (releaseBuffer b s).proxy = s.proxy := by
  simp [releaseBuffer]

@[simp] theorem releaseBuffer_keyList (b : BufferId) (s : State) : (releaseBuffer b s).keyList = s.keyList := by
  simp [releaseBuffer]

@[simp] theorem releaseBuffer_live (b : BufferId) (s : State) : (releaseBuffer b s).live = s.live := by
  simp [releaseBuffer]

@[simp] theorem releaseBuffer_log (b : BufferId) (s : State) : (releaseBuffer b s).log = s.log := by
  simp [releaseBuffer]

@[simp] theorem releaseBuffer_temp (b : BufferId) (s : State) : (releaseBuffer b s).temp = s.temp := by
  simp [releaseBuffer]

@[simp] theorem releaseBuffer_heat (b : BufferId) (s : State) : (releaseBuffer b s).heat = s.heat := by
  simp [releaseBuffer]

@[simp] theorem releaseBuffer_fan (b : BufferId) (s : State) : (releaseBuffer b s).fan = s.fan := by
  simp [releaseBuffer]

@[simp] theorem releaseBuffer_keypad (b : BufferId) (s : State) : (releaseBuffer b s).keypad = s.keypad := by
  simp [releaseBuffer]

@[simp] theorem releaseBuffer_mgmt (b : BufferId) (s : State) : (releaseBuffer b s).mgmt = s.mgmt := by
  simp [releaseBuffer]

@[simp] theorem releaseBuffer_tables (b : BufferId) (s : State) : (releaseBuffer b s).tables = s.tables := by
  simp [releaseBuffer]

@[simp] theorem releaseBuffer_store (b : BufferId) (s : State) : (releaseBuffer b s).store = s.store := by
  simp [releaseBuffer]

/-! ### composeNotice -/

@[simp] theorem composeNotice_pending (topic : Byte) (payload : List Byte) (s : State) :
    (composeNotice topic payload s).pending = s.pending := by
  unfold composeNotice; (repeat' split) <;> simp

@[simp] theorem composeNotice_clock (topic : Byte) (payload : List Byte) (s : State) :
    (composeNotice topic payload s).clock = s.clock := by
  unfold composeNotice; (repeat' split) <;> simp

@[simp] theorem composeNotice_fieldPort (topic : Byte) (payload : List Byte) (s : State) :
    (composeNotice topic payload s).fieldPort = s.fieldPort := by
  unfold composeNotice; (repeat' split) <;> simp

@[simp] theorem composeNotice_flags (topic : Byte) (payload : List Byte) (s : State) :
    (composeNotice topic payload s).flags = s.flags := by
  unfold composeNotice; (repeat' split) <;> simp

@[simp] theorem composeNotice_exchanges (topic : Byte) (payload : List Byte) (s : State) :
    (composeNotice topic payload s).exchanges = s.exchanges := by
  unfold composeNotice; (repeat' split) <;> simp

@[simp] theorem composeNotice_proxy (topic : Byte) (payload : List Byte) (s : State) :
    (composeNotice topic payload s).proxy = s.proxy := by
  unfold composeNotice; (repeat' split) <;> simp

@[simp] theorem composeNotice_keyList (topic : Byte) (payload : List Byte) (s : State) :
    (composeNotice topic payload s).keyList = s.keyList := by
  unfold composeNotice; (repeat' split) <;> simp

@[simp] theorem composeNotice_live (topic : Byte) (payload : List Byte) (s : State) :
    (composeNotice topic payload s).live = s.live := by
  unfold composeNotice; (repeat' split) <;> simp

@[simp] theorem composeNotice_log (topic : Byte) (payload : List Byte) (s : State) :
    (composeNotice topic payload s).log = s.log := by
  unfold composeNotice; (repeat' split) <;> simp

@[simp] theorem composeNotice_temp (topic : Byte) (payload : List Byte) (s : State) :
    (composeNotice topic payload s).temp = s.temp := by
  unfold composeNotice; (repeat' split) <;> simp

@[simp] theorem composeNotice_heat (topic : Byte) (payload : List Byte) (s : State) :
    (composeNotice topic payload s).heat = s.heat := by
  unfold composeNotice; (repeat' split) <;> simp

@[simp] theorem composeNotice_fan (topic : Byte) (payload : List Byte) (s : State) :
    (composeNotice topic payload s).fan = s.fan := by
  unfold composeNotice; (repeat' split) <;> simp

@[simp] theorem composeNotice_keypad (topic : Byte) (payload : List Byte) (s : State) :
    (composeNotice topic payload s).keypad = s.keypad := by
  unfold composeNotice; (repeat' split) <;> simp

@[simp] theorem composeNotice_keyUnit (topic : Byte) (payload : List Byte) (s : State) :
    (composeNotice topic payload s).keyUnit = s.keyUnit := by
  unfold composeNotice; (repeat' split) <;> simp

@[simp] theorem composeNotice_mgmt (topic : Byte) (payload : List Byte) (s : State) :
    (composeNotice topic payload s).mgmt = s.mgmt := by
  unfold composeNotice; (repeat' split) <;> simp

@[simp] theorem composeNotice_tables (topic : Byte) (payload : List Byte) (s : State) :
    (composeNotice topic payload s).tables = s.tables := by
  unfold composeNotice; (repeat' split) <;> simp

@[simp] theorem composeNotice_store (topic : Byte) (payload : List Byte) (s : State) :
    (composeNotice topic payload s).store = s.store := by
  unfold composeNotice; (repeat' split) <;> simp

/-! ### undoDescriptor -/

@[simp] theorem undoDescriptor_pending (d : Descriptor) (s : State) :
    (undoDescriptor d s).pending = s.pending := by
  unfold undoDescriptor; split <;> simp

@[simp] theorem undoDescriptor_clock (d : Descriptor) (s : State) : (undoDescriptor d s).clock = s.clock := by
  unfold undoDescriptor; split <;> simp

@[simp] theorem undoDescriptor_pool (d : Descriptor) (s : State) : (undoDescriptor d s).pool = s.pool := by
  unfold undoDescriptor; split <;> simp

@[simp] theorem undoDescriptor_hostPort (d : Descriptor) (s : State) :
    (undoDescriptor d s).hostPort = s.hostPort := by
  unfold undoDescriptor; split <;> simp

@[simp] theorem undoDescriptor_fieldPort (d : Descriptor) (s : State) :
    (undoDescriptor d s).fieldPort = s.fieldPort := by
  unfold undoDescriptor; split <;> simp

@[simp] theorem undoDescriptor_noticeNo (d : Descriptor) (s : State) :
    (undoDescriptor d s).noticeNo = s.noticeNo := by
  unfold undoDescriptor; split <;> simp

@[simp] theorem undoDescriptor_flags (d : Descriptor) (s : State) : (undoDescriptor d s).flags = s.flags := by
  unfold undoDescriptor; split <;> simp

@[simp] theorem undoDescriptor_exchanges (d : Descriptor) (s : State) :
    (undoDescriptor d s).exchanges = s.exchanges := by
  unfold undoDescriptor; split <;> simp

@[simp] theorem undoDescriptor_live (d : Descriptor) (s : State) : (undoDescriptor d s).live = s.live := by
  unfold undoDescriptor; split <;> simp

@[simp] theorem undoDescriptor_log (d : Descriptor) (s : State) : (undoDescriptor d s).log = s.log := by
  unfold undoDescriptor; split <;> simp

@[simp] theorem undoDescriptor_temp (d : Descriptor) (s : State) : (undoDescriptor d s).temp = s.temp := by
  unfold undoDescriptor; split <;> simp

@[simp] theorem undoDescriptor_heat (d : Descriptor) (s : State) : (undoDescriptor d s).heat = s.heat := by
  unfold undoDescriptor; split <;> simp

@[simp] theorem undoDescriptor_fan (d : Descriptor) (s : State) : (undoDescriptor d s).fan = s.fan := by
  unfold undoDescriptor; split <;> simp

@[simp] theorem undoDescriptor_keypad (d : Descriptor) (s : State) : (undoDescriptor d s).keypad = s.keypad := by
  unfold undoDescriptor; split <;> simp

@[simp] theorem undoDescriptor_keyUnit (d : Descriptor) (s : State) :
    (undoDescriptor d s).keyUnit = s.keyUnit := by
  unfold undoDescriptor; split <;> simp

@[simp] theorem undoDescriptor_mgmt (d : Descriptor) (s : State) : (undoDescriptor d s).mgmt = s.mgmt := by
  unfold undoDescriptor; split <;> simp

@[simp] theorem undoDescriptor_tables (d : Descriptor) (s : State) : (undoDescriptor d s).tables = s.tables := by
  unfold undoDescriptor; split <;> simp

@[simp] theorem undoDescriptor_store (d : Descriptor) (s : State) : (undoDescriptor d s).store = s.store := by
  unfold undoDescriptor; split <;> simp

@[simp] theorem undoDescriptor_counters (d : Descriptor) (s : State) :
    (undoDescriptor d s).counters = s.counters := by
  unfold undoDescriptor; split <;> simp

/-! ### offerReply -/

@[simp] theorem offerReply_pending (d : Descriptor) (s : State) : (offerReply d s).pending = s.pending := by
  unfold offerReply; split <;> simp

@[simp] theorem offerReply_clock (d : Descriptor) (s : State) : (offerReply d s).clock = s.clock := by
  unfold offerReply; split <;> simp

@[simp] theorem offerReply_pool (d : Descriptor) (s : State) : (offerReply d s).pool = s.pool := by
  unfold offerReply; split <;> simp

@[simp] theorem offerReply_hostPort (d : Descriptor) (s : State) : (offerReply d s).hostPort = s.hostPort := by
  unfold offerReply; split <;> simp

@[simp] theorem offerReply_noticeNo (d : Descriptor) (s : State) : (offerReply d s).noticeNo = s.noticeNo := by
  unfold offerReply; split <;> simp

@[simp] theorem offerReply_flags (d : Descriptor) (s : State) : (offerReply d s).flags = s.flags := by
  unfold offerReply; split <;> simp

@[simp] theorem offerReply_exchanges (d : Descriptor) (s : State) : (offerReply d s).exchanges = s.exchanges := by
  unfold offerReply; split <;> simp

@[simp] theorem offerReply_live (d : Descriptor) (s : State) : (offerReply d s).live = s.live := by
  unfold offerReply; split <;> simp

@[simp] theorem offerReply_log (d : Descriptor) (s : State) : (offerReply d s).log = s.log := by
  unfold offerReply; split <;> simp

@[simp] theorem offerReply_temp (d : Descriptor) (s : State) : (offerReply d s).temp = s.temp := by
  unfold offerReply; split <;> simp

@[simp] theorem offerReply_heat (d : Descriptor) (s : State) : (offerReply d s).heat = s.heat := by
  unfold offerReply; split <;> simp

@[simp] theorem offerReply_fan (d : Descriptor) (s : State) : (offerReply d s).fan = s.fan := by
  unfold offerReply; split <;> simp

@[simp] theorem offerReply_keypad (d : Descriptor) (s : State) : (offerReply d s).keypad = s.keypad := by
  unfold offerReply; split <;> simp

@[simp] theorem offerReply_keyUnit (d : Descriptor) (s : State) : (offerReply d s).keyUnit = s.keyUnit := by
  unfold offerReply; split <;> simp

@[simp] theorem offerReply_mgmt (d : Descriptor) (s : State) : (offerReply d s).mgmt = s.mgmt := by
  unfold offerReply; split <;> simp

@[simp] theorem offerReply_tables (d : Descriptor) (s : State) : (offerReply d s).tables = s.tables := by
  unfold offerReply; split <;> simp

@[simp] theorem offerReply_store (d : Descriptor) (s : State) : (offerReply d s).store = s.store := by
  unfold offerReply; split <;> simp

/-! ### composeReply -/

@[simp] theorem composeReply_pending (p : ReplyPurpose) (topic tag : Byte) (h : Bool) (t : Instant) (s : State) :
    (composeReply p topic tag h t s).pending = s.pending := by
  simp only [composeReply, proxyReply, noHalfReply, offerBareReply]; (repeat' split) <;> simp

@[simp] theorem composeReply_clock (p : ReplyPurpose) (topic tag : Byte) (h : Bool) (t : Instant) (s : State) :
    (composeReply p topic tag h t s).clock = s.clock := by
  simp only [composeReply, proxyReply, noHalfReply, offerBareReply]; (repeat' split) <;> simp

@[simp] theorem composeReply_pool (p : ReplyPurpose) (topic tag : Byte) (h : Bool) (t : Instant) (s : State) :
    (composeReply p topic tag h t s).pool = s.pool := by
  simp only [composeReply, proxyReply, noHalfReply, offerBareReply]; (repeat' split) <;> simp

@[simp] theorem composeReply_hostPort (p : ReplyPurpose) (topic tag : Byte) (h : Bool) (t : Instant) (s : State) :
    (composeReply p topic tag h t s).hostPort = s.hostPort := by
  simp only [composeReply, proxyReply, noHalfReply, offerBareReply]; (repeat' split) <;> simp

@[simp] theorem composeReply_noticeNo (p : ReplyPurpose) (topic tag : Byte) (h : Bool) (t : Instant) (s : State) :
    (composeReply p topic tag h t s).noticeNo = s.noticeNo := by
  simp only [composeReply, proxyReply, noHalfReply, offerBareReply]; (repeat' split) <;> simp

@[simp] theorem composeReply_flags (p : ReplyPurpose) (topic tag : Byte) (h : Bool) (t : Instant) (s : State) :
    (composeReply p topic tag h t s).flags = s.flags := by
  simp only [composeReply, proxyReply, noHalfReply, offerBareReply]; (repeat' split) <;> simp

@[simp] theorem composeReply_exchanges (p : ReplyPurpose) (topic tag : Byte) (h : Bool) (t : Instant) (s : State) :
    (composeReply p topic tag h t s).exchanges = s.exchanges := by
  simp only [composeReply, proxyReply, noHalfReply, offerBareReply]; (repeat' split) <;> simp

@[simp] theorem composeReply_live (p : ReplyPurpose) (topic tag : Byte) (h : Bool) (t : Instant) (s : State) :
    (composeReply p topic tag h t s).live = s.live := by
  simp only [composeReply, proxyReply, noHalfReply, offerBareReply]; (repeat' split) <;> simp

@[simp] theorem composeReply_log (p : ReplyPurpose) (topic tag : Byte) (h : Bool) (t : Instant) (s : State) :
    (composeReply p topic tag h t s).log = s.log := by
  simp only [composeReply, proxyReply, noHalfReply, offerBareReply]; (repeat' split) <;> simp

@[simp] theorem composeReply_temp (p : ReplyPurpose) (topic tag : Byte) (h : Bool) (t : Instant) (s : State) :
    (composeReply p topic tag h t s).temp = s.temp := by
  simp only [composeReply, proxyReply, noHalfReply, offerBareReply]; (repeat' split) <;> simp

@[simp] theorem composeReply_heat (p : ReplyPurpose) (topic tag : Byte) (h : Bool) (t : Instant) (s : State) :
    (composeReply p topic tag h t s).heat = s.heat := by
  simp only [composeReply, proxyReply, noHalfReply, offerBareReply]; (repeat' split) <;> simp

@[simp] theorem composeReply_fan (p : ReplyPurpose) (topic tag : Byte) (h : Bool) (t : Instant) (s : State) :
    (composeReply p topic tag h t s).fan = s.fan := by
  simp only [composeReply, proxyReply, noHalfReply, offerBareReply]; (repeat' split) <;> simp

@[simp] theorem composeReply_keypad (p : ReplyPurpose) (topic tag : Byte) (h : Bool) (t : Instant) (s : State) :
    (composeReply p topic tag h t s).keypad = s.keypad := by
  simp only [composeReply, proxyReply, noHalfReply, offerBareReply]; (repeat' split) <;> simp

@[simp] theorem composeReply_keyUnit (p : ReplyPurpose) (topic tag : Byte) (h : Bool) (t : Instant) (s : State) :
    (composeReply p topic tag h t s).keyUnit = s.keyUnit := by
  simp only [composeReply, proxyReply, noHalfReply, offerBareReply]; (repeat' split) <;> simp

@[simp] theorem composeReply_mgmt (p : ReplyPurpose) (topic tag : Byte) (h : Bool) (t : Instant) (s : State) :
    (composeReply p topic tag h t s).mgmt = s.mgmt := by
  simp only [composeReply, proxyReply, noHalfReply, offerBareReply]; (repeat' split) <;> simp

@[simp] theorem composeReply_tables (p : ReplyPurpose) (topic tag : Byte) (h : Bool) (t : Instant) (s : State) :
    (composeReply p topic tag h t s).tables = s.tables := by
  simp only [composeReply, proxyReply, noHalfReply, offerBareReply]; (repeat' split) <;> simp

@[simp] theorem composeReply_store (p : ReplyPurpose) (topic tag : Byte) (h : Bool) (t : Instant) (s : State) :
    (composeReply p topic tag h t s).store = s.store := by
  simp only [composeReply, proxyReply, noHalfReply, offerBareReply]; (repeat' split) <;> simp

/-! ### capture -/

@[simp] theorem capture_pending (topic : Byte) (payload : List Byte) (t : Instant) (s : State) :
    (capture topic payload t s).pending = s.pending := by
  unfold capture; (repeat' split) <;> simp

@[simp] theorem capture_clock (topic : Byte) (payload : List Byte) (t : Instant) (s : State) :
    (capture topic payload t s).clock = s.clock := by
  unfold capture; (repeat' split) <;> simp

@[simp] theorem capture_pool (topic : Byte) (payload : List Byte) (t : Instant) (s : State) :
    (capture topic payload t s).pool = s.pool := by
  unfold capture; (repeat' split) <;> simp

@[simp] theorem capture_hostPort (topic : Byte) (payload : List Byte) (t : Instant) (s : State) :
    (capture topic payload t s).hostPort = s.hostPort := by
  unfold capture; (repeat' split) <;> simp

@[simp] theorem capture_fieldPort (topic : Byte) (payload : List Byte) (t : Instant) (s : State) :
    (capture topic payload t s).fieldPort = s.fieldPort := by
  unfold capture; (repeat' split) <;> simp

@[simp] theorem capture_noticeNo (topic : Byte) (payload : List Byte) (t : Instant) (s : State) :
    (capture topic payload t s).noticeNo = s.noticeNo := by
  unfold capture; (repeat' split) <;> simp

@[simp] theorem capture_flags (topic : Byte) (payload : List Byte) (t : Instant) (s : State) :
    (capture topic payload t s).flags = s.flags := by
  unfold capture; (repeat' split) <;> simp

@[simp] theorem capture_exchanges (topic : Byte) (payload : List Byte) (t : Instant) (s : State) :
    (capture topic payload t s).exchanges = s.exchanges := by
  unfold capture; (repeat' split) <;> simp

@[simp] theorem capture_keyList (topic : Byte) (payload : List Byte) (t : Instant) (s : State) :
    (capture topic payload t s).keyList = s.keyList := by
  unfold capture; (repeat' split) <;> simp

@[simp] theorem capture_live (topic : Byte) (payload : List Byte) (t : Instant) (s : State) :
    (capture topic payload t s).live = s.live := by
  unfold capture; (repeat' split) <;> simp

@[simp] theorem capture_log (topic : Byte) (payload : List Byte) (t : Instant) (s : State) :
    (capture topic payload t s).log = s.log := by
  unfold capture; (repeat' split) <;> simp

@[simp] theorem capture_temp (topic : Byte) (payload : List Byte) (t : Instant) (s : State) :
    (capture topic payload t s).temp = s.temp := by
  unfold capture; (repeat' split) <;> simp

@[simp] theorem capture_heat (topic : Byte) (payload : List Byte) (t : Instant) (s : State) :
    (capture topic payload t s).heat = s.heat := by
  unfold capture; (repeat' split) <;> simp

@[simp] theorem capture_fan (topic : Byte) (payload : List Byte) (t : Instant) (s : State) :
    (capture topic payload t s).fan = s.fan := by
  unfold capture; (repeat' split) <;> simp

@[simp] theorem capture_keypad (topic : Byte) (payload : List Byte) (t : Instant) (s : State) :
    (capture topic payload t s).keypad = s.keypad := by
  unfold capture; (repeat' split) <;> simp

@[simp] theorem capture_keyUnit (topic : Byte) (payload : List Byte) (t : Instant) (s : State) :
    (capture topic payload t s).keyUnit = s.keyUnit := by
  unfold capture; (repeat' split) <;> simp

@[simp] theorem capture_mgmt (topic : Byte) (payload : List Byte) (t : Instant) (s : State) :
    (capture topic payload t s).mgmt = s.mgmt := by
  unfold capture; (repeat' split) <;> simp

@[simp] theorem capture_tables (topic : Byte) (payload : List Byte) (t : Instant) (s : State) :
    (capture topic payload t s).tables = s.tables := by
  unfold capture; (repeat' split) <;> simp

@[simp] theorem capture_store (topic : Byte) (payload : List Byte) (t : Instant) (s : State) :
    (capture topic payload t s).store = s.store := by
  unfold capture; (repeat' split) <;> simp

/-! ### openExchange -/

@[simp] theorem openExchange_pending (i : ExchangeId) (tag topic : Byte) (t : Instant) (s : State) :
    (openExchange i tag topic t s).pending = s.pending := by
  simp only [openExchange]; split <;> simp

@[simp] theorem openExchange_clock (i : ExchangeId) (tag topic : Byte) (t : Instant) (s : State) :
    (openExchange i tag topic t s).clock = s.clock := by
  simp only [openExchange]; split <;> simp

@[simp] theorem openExchange_pool (i : ExchangeId) (tag topic : Byte) (t : Instant) (s : State) :
    (openExchange i tag topic t s).pool = s.pool := by
  simp only [openExchange]; split <;> simp

@[simp] theorem openExchange_hostPort (i : ExchangeId) (tag topic : Byte) (t : Instant) (s : State) :
    (openExchange i tag topic t s).hostPort = s.hostPort := by
  simp only [openExchange]; split <;> simp

@[simp] theorem openExchange_fieldPort (i : ExchangeId) (tag topic : Byte) (t : Instant) (s : State) :
    (openExchange i tag topic t s).fieldPort = s.fieldPort := by
  simp only [openExchange]; split <;> simp

@[simp] theorem openExchange_noticeNo (i : ExchangeId) (tag topic : Byte) (t : Instant) (s : State) :
    (openExchange i tag topic t s).noticeNo = s.noticeNo := by
  simp only [openExchange]; split <;> simp

@[simp] theorem openExchange_flags (i : ExchangeId) (tag topic : Byte) (t : Instant) (s : State) :
    (openExchange i tag topic t s).flags = s.flags := by
  simp only [openExchange]; split <;> simp

@[simp] theorem openExchange_proxy (i : ExchangeId) (tag topic : Byte) (t : Instant) (s : State) :
    (openExchange i tag topic t s).proxy = s.proxy := by
  simp only [openExchange]; split <;> simp

@[simp] theorem openExchange_keyList (i : ExchangeId) (tag topic : Byte) (t : Instant) (s : State) :
    (openExchange i tag topic t s).keyList = s.keyList := by
  simp only [openExchange]; split <;> simp

@[simp] theorem openExchange_live (i : ExchangeId) (tag topic : Byte) (t : Instant) (s : State) :
    (openExchange i tag topic t s).live = s.live := by
  simp only [openExchange]; split <;> simp

@[simp] theorem openExchange_log (i : ExchangeId) (tag topic : Byte) (t : Instant) (s : State) :
    (openExchange i tag topic t s).log = s.log := by
  simp only [openExchange]; split <;> simp

@[simp] theorem openExchange_temp (i : ExchangeId) (tag topic : Byte) (t : Instant) (s : State) :
    (openExchange i tag topic t s).temp = s.temp := by
  simp only [openExchange]; split <;> simp

@[simp] theorem openExchange_heat (i : ExchangeId) (tag topic : Byte) (t : Instant) (s : State) :
    (openExchange i tag topic t s).heat = s.heat := by
  simp only [openExchange]; split <;> simp

@[simp] theorem openExchange_fan (i : ExchangeId) (tag topic : Byte) (t : Instant) (s : State) :
    (openExchange i tag topic t s).fan = s.fan := by
  simp only [openExchange]; split <;> simp

@[simp] theorem openExchange_keypad (i : ExchangeId) (tag topic : Byte) (t : Instant) (s : State) :
    (openExchange i tag topic t s).keypad = s.keypad := by
  simp only [openExchange]; split <;> simp

@[simp] theorem openExchange_keyUnit (i : ExchangeId) (tag topic : Byte) (t : Instant) (s : State) :
    (openExchange i tag topic t s).keyUnit = s.keyUnit := by
  simp only [openExchange]; split <;> simp

@[simp] theorem openExchange_mgmt (i : ExchangeId) (tag topic : Byte) (t : Instant) (s : State) :
    (openExchange i tag topic t s).mgmt = s.mgmt := by
  simp only [openExchange]; split <;> simp

@[simp] theorem openExchange_tables (i : ExchangeId) (tag topic : Byte) (t : Instant) (s : State) :
    (openExchange i tag topic t s).tables = s.tables := by
  simp only [openExchange]; split <;> simp

@[simp] theorem openExchange_store (i : ExchangeId) (tag topic : Byte) (t : Instant) (s : State) :
    (openExchange i tag topic t s).store = s.store := by
  simp only [openExchange]; split <;> simp

/-! ### absorbRetry -/

@[simp] theorem absorbRetry_pending (i : ExchangeId) (s : State) : (absorbRetry i s).pending = s.pending := by
  unfold absorbRetry; split <;> simp

@[simp] theorem absorbRetry_clock (i : ExchangeId) (s : State) : (absorbRetry i s).clock = s.clock := by
  unfold absorbRetry; split <;> simp

@[simp] theorem absorbRetry_pool (i : ExchangeId) (s : State) : (absorbRetry i s).pool = s.pool := by
  unfold absorbRetry; split <;> simp

@[simp] theorem absorbRetry_hostPort (i : ExchangeId) (s : State) : (absorbRetry i s).hostPort = s.hostPort := by
  unfold absorbRetry; split <;> simp

@[simp] theorem absorbRetry_fieldPort (i : ExchangeId) (s : State) :
    (absorbRetry i s).fieldPort = s.fieldPort := by
  unfold absorbRetry; split <;> simp

@[simp] theorem absorbRetry_noticeNo (i : ExchangeId) (s : State) : (absorbRetry i s).noticeNo = s.noticeNo := by
  unfold absorbRetry; split <;> simp

@[simp] theorem absorbRetry_flags (i : ExchangeId) (s : State) : (absorbRetry i s).flags = s.flags := by
  unfold absorbRetry; split <;> simp

@[simp] theorem absorbRetry_proxy (i : ExchangeId) (s : State) : (absorbRetry i s).proxy = s.proxy := by
  unfold absorbRetry; split <;> simp

@[simp] theorem absorbRetry_keyList (i : ExchangeId) (s : State) : (absorbRetry i s).keyList = s.keyList := by
  unfold absorbRetry; split <;> simp

@[simp] theorem absorbRetry_live (i : ExchangeId) (s : State) : (absorbRetry i s).live = s.live := by
  unfold absorbRetry; split <;> simp

@[simp] theorem absorbRetry_log (i : ExchangeId) (s : State) : (absorbRetry i s).log = s.log := by
  unfold absorbRetry; split <;> simp

@[simp] theorem absorbRetry_temp (i : ExchangeId) (s : State) : (absorbRetry i s).temp = s.temp := by
  unfold absorbRetry; split <;> simp

@[simp] theorem absorbRetry_heat (i : ExchangeId) (s : State) : (absorbRetry i s).heat = s.heat := by
  unfold absorbRetry; split <;> simp

@[simp] theorem absorbRetry_fan (i : ExchangeId) (s : State) : (absorbRetry i s).fan = s.fan := by
  unfold absorbRetry; split <;> simp

@[simp] theorem absorbRetry_keypad (i : ExchangeId) (s : State) : (absorbRetry i s).keypad = s.keypad := by
  unfold absorbRetry; split <;> simp

@[simp] theorem absorbRetry_keyUnit (i : ExchangeId) (s : State) : (absorbRetry i s).keyUnit = s.keyUnit := by
  unfold absorbRetry; split <;> simp

@[simp] theorem absorbRetry_mgmt (i : ExchangeId) (s : State) : (absorbRetry i s).mgmt = s.mgmt := by
  unfold absorbRetry; split <;> simp

@[simp] theorem absorbRetry_tables (i : ExchangeId) (s : State) : (absorbRetry i s).tables = s.tables := by
  unfold absorbRetry; split <;> simp

@[simp] theorem absorbRetry_store (i : ExchangeId) (s : State) : (absorbRetry i s).store = s.store := by
  unfold absorbRetry; split <;> simp

/-! ### expireExchange -/

@[simp] theorem expireExchange_pending (i : ExchangeId) (h : Bool) (t : Instant) (s : State) :
    (expireExchange i h t s).pending = s.pending := by
  unfold expireExchange; split <;> simp

@[simp] theorem expireExchange_clock (i : ExchangeId) (h : Bool) (t : Instant) (s : State) :
    (expireExchange i h t s).clock = s.clock := by
  unfold expireExchange; split <;> simp

@[simp] theorem expireExchange_pool (i : ExchangeId) (h : Bool) (t : Instant) (s : State) :
    (expireExchange i h t s).pool = s.pool := by
  unfold expireExchange; split <;> simp

@[simp] theorem expireExchange_hostPort (i : ExchangeId) (h : Bool) (t : Instant) (s : State) :
    (expireExchange i h t s).hostPort = s.hostPort := by
  unfold expireExchange; split <;> simp

@[simp] theorem expireExchange_noticeNo (i : ExchangeId) (h : Bool) (t : Instant) (s : State) :
    (expireExchange i h t s).noticeNo = s.noticeNo := by
  unfold expireExchange; split <;> simp

@[simp] theorem expireExchange_flags (i : ExchangeId) (h : Bool) (t : Instant) (s : State) :
    (expireExchange i h t s).flags = s.flags := by
  unfold expireExchange; split <;> simp

@[simp] theorem expireExchange_live (i : ExchangeId) (h : Bool) (t : Instant) (s : State) :
    (expireExchange i h t s).live = s.live := by
  unfold expireExchange; split <;> simp

@[simp] theorem expireExchange_log (i : ExchangeId) (h : Bool) (t : Instant) (s : State) :
    (expireExchange i h t s).log = s.log := by
  unfold expireExchange; split <;> simp

@[simp] theorem expireExchange_temp (i : ExchangeId) (h : Bool) (t : Instant) (s : State) :
    (expireExchange i h t s).temp = s.temp := by
  unfold expireExchange; split <;> simp

@[simp] theorem expireExchange_heat (i : ExchangeId) (h : Bool) (t : Instant) (s : State) :
    (expireExchange i h t s).heat = s.heat := by
  unfold expireExchange; split <;> simp

@[simp] theorem expireExchange_fan (i : ExchangeId) (h : Bool) (t : Instant) (s : State) :
    (expireExchange i h t s).fan = s.fan := by
  unfold expireExchange; split <;> simp

@[simp] theorem expireExchange_keypad (i : ExchangeId) (h : Bool) (t : Instant) (s : State) :
    (expireExchange i h t s).keypad = s.keypad := by
  unfold expireExchange; split <;> simp

@[simp] theorem expireExchange_keyUnit (i : ExchangeId) (h : Bool) (t : Instant) (s : State) :
    (expireExchange i h t s).keyUnit = s.keyUnit := by
  unfold expireExchange; split <;> simp

@[simp] theorem expireExchange_mgmt (i : ExchangeId) (h : Bool) (t : Instant) (s : State) :
    (expireExchange i h t s).mgmt = s.mgmt := by
  unfold expireExchange; split <;> simp

@[simp] theorem expireExchange_tables (i : ExchangeId) (h : Bool) (t : Instant) (s : State) :
    (expireExchange i h t s).tables = s.tables := by
  unfold expireExchange; split <;> simp

@[simp] theorem expireExchange_store (i : ExchangeId) (h : Bool) (t : Instant) (s : State) :
    (expireExchange i h t s).store = s.store := by
  unfold expireExchange; split <;> simp

/-- A fold keeps what each of its steps keeps. -/
theorem foldl_keeps {α β : Type} (g : State → β) (f : State → α → State) (h : ∀ s a, g (f s a) = g s) (l : List α)
    (s : State) : g (l.foldl f s) = g s := by
  induction l generalizing s with
  | nil => rfl
  | cons a l ih => rw [List.foldl_cons, ih, h]

/-! ### expireOnLeavingHostUp -/

@[simp] theorem expireOnLeavingHostUp_pending (t : Instant) (s : State) :
    (expireOnLeavingHostUp t s).pending = s.pending := by
  simp only [expireOnLeavingHostUp, bumpBy_pending]
  exact foldl_keeps (fun s => s.pending) _ (fun s i => by simp) _ s

@[simp] theorem expireOnLeavingHostUp_clock (t : Instant) (s : State) :
    (expireOnLeavingHostUp t s).clock = s.clock := by
  simp only [expireOnLeavingHostUp, bumpBy_clock]
  exact foldl_keeps (fun s => s.clock) _ (fun s i => by simp) _ s

@[simp] theorem expireOnLeavingHostUp_pool (t : Instant) (s : State) :
    (expireOnLeavingHostUp t s).pool = s.pool := by
  simp only [expireOnLeavingHostUp, bumpBy_pool]
  exact foldl_keeps (fun s => s.pool) _ (fun s i => by simp) _ s

@[simp] theorem expireOnLeavingHostUp_hostPort (t : Instant) (s : State) :
    (expireOnLeavingHostUp t s).hostPort = s.hostPort := by
  simp only [expireOnLeavingHostUp, bumpBy_hostPort]
  exact foldl_keeps (fun s => s.hostPort) _ (fun s i => by simp) _ s

@[simp] theorem expireOnLeavingHostUp_noticeNo (t : Instant) (s : State) :
    (expireOnLeavingHostUp t s).noticeNo = s.noticeNo := by
  simp only [expireOnLeavingHostUp, bumpBy_noticeNo]
  exact foldl_keeps (fun s => s.noticeNo) _ (fun s i => by simp) _ s

@[simp] theorem expireOnLeavingHostUp_flags (t : Instant) (s : State) :
    (expireOnLeavingHostUp t s).flags = s.flags := by
  simp only [expireOnLeavingHostUp, bumpBy_flags]
  exact foldl_keeps (fun s => s.flags) _ (fun s i => by simp) _ s

@[simp] theorem expireOnLeavingHostUp_live (t : Instant) (s : State) :
    (expireOnLeavingHostUp t s).live = s.live := by
  simp only [expireOnLeavingHostUp, bumpBy_live]
  exact foldl_keeps (fun s => s.live) _ (fun s i => by simp) _ s

@[simp] theorem expireOnLeavingHostUp_log (t : Instant) (s : State) : (expireOnLeavingHostUp t s).log = s.log := by
  simp only [expireOnLeavingHostUp, bumpBy_log]
  exact foldl_keeps (fun s => s.log) _ (fun s i => by simp) _ s

@[simp] theorem expireOnLeavingHostUp_temp (t : Instant) (s : State) :
    (expireOnLeavingHostUp t s).temp = s.temp := by
  simp only [expireOnLeavingHostUp, bumpBy_temp]
  exact foldl_keeps (fun s => s.temp) _ (fun s i => by simp) _ s

@[simp] theorem expireOnLeavingHostUp_heat (t : Instant) (s : State) :
    (expireOnLeavingHostUp t s).heat = s.heat := by
  simp only [expireOnLeavingHostUp, bumpBy_heat]
  exact foldl_keeps (fun s => s.heat) _ (fun s i => by simp) _ s

@[simp] theorem expireOnLeavingHostUp_fan (t : Instant) (s : State) : (expireOnLeavingHostUp t s).fan = s.fan := by
  simp only [expireOnLeavingHostUp, bumpBy_fan]
  exact foldl_keeps (fun s => s.fan) _ (fun s i => by simp) _ s

@[simp] theorem expireOnLeavingHostUp_keypad (t : Instant) (s : State) :
    (expireOnLeavingHostUp t s).keypad = s.keypad := by
  simp only [expireOnLeavingHostUp, bumpBy_keypad]
  exact foldl_keeps (fun s => s.keypad) _ (fun s i => by simp) _ s

@[simp] theorem expireOnLeavingHostUp_keyUnit (t : Instant) (s : State) :
    (expireOnLeavingHostUp t s).keyUnit = s.keyUnit := by
  simp only [expireOnLeavingHostUp, bumpBy_keyUnit]
  exact foldl_keeps (fun s => s.keyUnit) _ (fun s i => by simp) _ s

@[simp] theorem expireOnLeavingHostUp_mgmt (t : Instant) (s : State) :
    (expireOnLeavingHostUp t s).mgmt = s.mgmt := by
  simp only [expireOnLeavingHostUp, bumpBy_mgmt]
  exact foldl_keeps (fun s => s.mgmt) _ (fun s i => by simp) _ s

@[simp] theorem expireOnLeavingHostUp_tables (t : Instant) (s : State) :
    (expireOnLeavingHostUp t s).tables = s.tables := by
  simp only [expireOnLeavingHostUp, bumpBy_tables]
  exact foldl_keeps (fun s => s.tables) _ (fun s i => by simp) _ s

@[simp] theorem expireOnLeavingHostUp_store (t : Instant) (s : State) :
    (expireOnLeavingHostUp t s).store = s.store := by
  simp only [expireOnLeavingHostUp, bumpBy_store]
  exact foldl_keeps (fun s => s.store) _ (fun s i => by simp) _ s

/-! ### leaveHostUp -/

@[simp] theorem leaveHostUp_pending (t : Instant) (s : State) : (leaveHostUp t s).pending = s.pending := by
  simp [leaveHostUp]

@[simp] theorem leaveHostUp_clock (t : Instant) (s : State) : (leaveHostUp t s).clock = s.clock := by
  simp [leaveHostUp]

@[simp] theorem leaveHostUp_pool (t : Instant) (s : State) : (leaveHostUp t s).pool = s.pool := by simp [leaveHostUp]

@[simp] theorem leaveHostUp_hostPort (t : Instant) (s : State) : (leaveHostUp t s).hostPort = s.hostPort := by
  simp [leaveHostUp]

@[simp] theorem leaveHostUp_noticeNo (t : Instant) (s : State) : (leaveHostUp t s).noticeNo = s.noticeNo := by
  simp [leaveHostUp]

@[simp] theorem leaveHostUp_flags (t : Instant) (s : State) : (leaveHostUp t s).flags = s.flags := by
  simp [leaveHostUp]

@[simp] theorem leaveHostUp_live (t : Instant) (s : State) : (leaveHostUp t s).live = s.live := by simp [leaveHostUp]

@[simp] theorem leaveHostUp_log (t : Instant) (s : State) : (leaveHostUp t s).log = s.log := by simp [leaveHostUp]

@[simp] theorem leaveHostUp_temp (t : Instant) (s : State) : (leaveHostUp t s).temp = s.temp := by simp [leaveHostUp]

@[simp] theorem leaveHostUp_heat (t : Instant) (s : State) : (leaveHostUp t s).heat = s.heat := by simp [leaveHostUp]

@[simp] theorem leaveHostUp_fan (t : Instant) (s : State) : (leaveHostUp t s).fan = s.fan := by simp [leaveHostUp]

@[simp] theorem leaveHostUp_keypad (t : Instant) (s : State) : (leaveHostUp t s).keypad = s.keypad := by
  simp [leaveHostUp]

@[simp] theorem leaveHostUp_mgmt (t : Instant) (s : State) : (leaveHostUp t s).mgmt = s.mgmt := by simp [leaveHostUp]

@[simp] theorem leaveHostUp_tables (t : Instant) (s : State) : (leaveHostUp t s).tables = s.tables := by
  simp [leaveHostUp]

@[simp] theorem leaveHostUp_store (t : Instant) (s : State) : (leaveHostUp t s).store = s.store := by
  simp [leaveHostUp]

/-! ### blockIfNotAllowed -/

@[simp] theorem blockIfNotAllowed_pending (c : Heater) (s : State) :
    (blockIfNotAllowed c s).pending = s.pending := by
  unfold blockIfNotAllowed; split <;> simp

@[simp] theorem blockIfNotAllowed_clock (c : Heater) (s : State) : (blockIfNotAllowed c s).clock = s.clock := by
  unfold blockIfNotAllowed; split <;> simp

@[simp] theorem blockIfNotAllowed_pool (c : Heater) (s : State) : (blockIfNotAllowed c s).pool = s.pool := by
  unfold blockIfNotAllowed; split <;> simp

@[simp] theorem blockIfNotAllowed_hostPort (c : Heater) (s : State) :
    (blockIfNotAllowed c s).hostPort = s.hostPort := by
  unfold blockIfNotAllowed; split <;> simp

@[simp] theorem blockIfNotAllowed_fieldPort (c : Heater) (s : State) :
    (blockIfNotAllowed c s).fieldPort = s.fieldPort := by
  unfold blockIfNotAllowed; split <;> simp

@[simp] theorem blockIfNotAllowed_noticeNo (c : Heater) (s : State) :
    (blockIfNotAllowed c s).noticeNo = s.noticeNo := by
  unfold blockIfNotAllowed; split <;> simp

@[simp] theorem blockIfNotAllowed_flags (c : Heater) (s : State) : (blockIfNotAllowed c s).flags = s.flags := by
  unfold blockIfNotAllowed; split <;> simp

@[simp] theorem blockIfNotAllowed_exchanges (c : Heater) (s : State) :
    (blockIfNotAllowed c s).exchanges = s.exchanges := by
  unfold blockIfNotAllowed; split <;> simp

@[simp] theorem blockIfNotAllowed_proxy (c : Heater) (s : State) : (blockIfNotAllowed c s).proxy = s.proxy := by
  unfold blockIfNotAllowed; split <;> simp

@[simp] theorem blockIfNotAllowed_keyList (c : Heater) (s : State) :
    (blockIfNotAllowed c s).keyList = s.keyList := by
  unfold blockIfNotAllowed; split <;> simp

@[simp] theorem blockIfNotAllowed_live (c : Heater) (s : State) : (blockIfNotAllowed c s).live = s.live := by
  unfold blockIfNotAllowed; split <;> simp

@[simp] theorem blockIfNotAllowed_log (c : Heater) (s : State) : (blockIfNotAllowed c s).log = s.log := by
  unfold blockIfNotAllowed; split <;> simp

@[simp] theorem blockIfNotAllowed_temp (c : Heater) (s : State) : (blockIfNotAllowed c s).temp = s.temp := by
  unfold blockIfNotAllowed; split <;> simp

@[simp] theorem blockIfNotAllowed_fan (c : Heater) (s : State) : (blockIfNotAllowed c s).fan = s.fan := by
  unfold blockIfNotAllowed; split <;> simp

@[simp] theorem blockIfNotAllowed_keypad (c : Heater) (s : State) : (blockIfNotAllowed c s).keypad = s.keypad := by
  unfold blockIfNotAllowed; split <;> simp

@[simp] theorem blockIfNotAllowed_keyUnit (c : Heater) (s : State) :
    (blockIfNotAllowed c s).keyUnit = s.keyUnit := by
  unfold blockIfNotAllowed; split <;> simp

@[simp] theorem blockIfNotAllowed_mgmt (c : Heater) (s : State) : (blockIfNotAllowed c s).mgmt = s.mgmt := by
  unfold blockIfNotAllowed; split <;> simp

@[simp] theorem blockIfNotAllowed_tables (c : Heater) (s : State) : (blockIfNotAllowed c s).tables = s.tables := by
  unfold blockIfNotAllowed; split <;> simp

@[simp] theorem blockIfNotAllowed_store (c : Heater) (s : State) : (blockIfNotAllowed c s).store = s.store := by
  unfold blockIfNotAllowed; split <;> simp

/-! ### blockNotAllowed -/

@[simp] theorem blockNotAllowed_pending (s : State) : (blockNotAllowed s).pending = s.pending := by
  simp [blockNotAllowed]

@[simp] theorem blockNotAllowed_clock (s : State) : (blockNotAllowed s).clock = s.clock := by simp [blockNotAllowed]

@[simp] theorem blockNotAllowed_pool (s : State) : (blockNotAllowed s).pool = s.pool := by simp [blockNotAllowed]

@[simp] theorem blockNotAllowed_hostPort (s : State) : (blockNotAllowed s).hostPort = s.hostPort := by
  simp [blockNotAllowed]

@[simp] theorem blockNotAllowed_fieldPort (s : State) : (blockNotAllowed s).fieldPort = s.fieldPort := by
  simp [blockNotAllowed]

@[simp] theorem blockNotAllowed_noticeNo (s : State) : (blockNotAllowed s).noticeNo = s.noticeNo := by
  simp [blockNotAllowed]

@[simp] theorem blockNotAllowed_flags (s : State) : (blockNotAllowed s).flags = s.flags := by simp [blockNotAllowed]

@[simp] theorem blockNotAllowed_exchanges (s : State) : (blockNotAllowed s).exchanges = s.exchanges := by
  simp [blockNotAllowed]

@[simp] theorem blockNotAllowed_proxy (s : State) : (blockNotAllowed s).proxy = s.proxy := by simp [blockNotAllowed]

@[simp] theorem blockNotAllowed_keyList (s : State) : (blockNotAllowed s).keyList = s.keyList := by
  simp [blockNotAllowed]

@[simp] theorem blockNotAllowed_live (s : State) : (blockNotAllowed s).live = s.live := by simp [blockNotAllowed]

@[simp] theorem blockNotAllowed_log (s : State) : (blockNotAllowed s).log = s.log := by simp [blockNotAllowed]

@[simp] theorem blockNotAllowed_temp (s : State) : (blockNotAllowed s).temp = s.temp := by simp [blockNotAllowed]

@[simp] theorem blockNotAllowed_fan (s : State) : (blockNotAllowed s).fan = s.fan := by simp [blockNotAllowed]

@[simp] theorem blockNotAllowed_keypad (s : State) : (blockNotAllowed s).keypad = s.keypad := by
  simp [blockNotAllowed]

@[simp] theorem blockNotAllowed_keyUnit (s : State) : (blockNotAllowed s).keyUnit = s.keyUnit := by
  simp [blockNotAllowed]

@[simp] theorem blockNotAllowed_mgmt (s : State) : (blockNotAllowed s).mgmt = s.mgmt := by simp [blockNotAllowed]

@[simp] theorem blockNotAllowed_tables (s : State) : (blockNotAllowed s).tables = s.tables := by
  simp [blockNotAllowed]

@[simp] theorem blockNotAllowed_store (s : State) : (blockNotAllowed s).store = s.store := by simp [blockNotAllowed]

/-! ### enterState -/

@[simp] theorem enterState_pending (st : Liveness) (timer : Option Timer) (t : Instant) (s : State) :
    (enterState st timer t s).pending = s.pending := by
  simp only [enterState, hostPowerOn]; (repeat' split) <;> simp

@[simp] theorem enterState_clock (st : Liveness) (timer : Option Timer) (t : Instant) (s : State) :
    (enterState st timer t s).clock = s.clock := by
  simp only [enterState, hostPowerOn]; (repeat' split) <;> simp

@[simp] theorem enterState_pool (st : Liveness) (timer : Option Timer) (t : Instant) (s : State) :
    (enterState st timer t s).pool = s.pool := by
  simp only [enterState, hostPowerOn]; (repeat' split) <;> simp

@[simp] theorem enterState_hostPort (st : Liveness) (timer : Option Timer) (t : Instant) (s : State) :
    (enterState st timer t s).hostPort = s.hostPort := by
  simp only [enterState, hostPowerOn]; (repeat' split) <;> simp

@[simp] theorem enterState_noticeNo (st : Liveness) (timer : Option Timer) (t : Instant) (s : State) :
    (enterState st timer t s).noticeNo = s.noticeNo := by
  simp only [enterState, hostPowerOn]; (repeat' split) <;> simp

@[simp] theorem enterState_flags (st : Liveness) (timer : Option Timer) (t : Instant) (s : State) :
    (enterState st timer t s).flags = s.flags := by
  simp only [enterState, hostPowerOn]; (repeat' split) <;> simp

@[simp] theorem enterState_log (st : Liveness) (timer : Option Timer) (t : Instant) (s : State) :
    (enterState st timer t s).log = s.log := by
  simp only [enterState, hostPowerOn]; (repeat' split) <;> simp

@[simp] theorem enterState_temp (st : Liveness) (timer : Option Timer) (t : Instant) (s : State) :
    (enterState st timer t s).temp = s.temp := by
  simp only [enterState, hostPowerOn]; (repeat' split) <;> simp

@[simp] theorem enterState_fan (st : Liveness) (timer : Option Timer) (t : Instant) (s : State) :
    (enterState st timer t s).fan = s.fan := by
  simp only [enterState, hostPowerOn]; (repeat' split) <;> simp

@[simp] theorem enterState_keypad (st : Liveness) (timer : Option Timer) (t : Instant) (s : State) :
    (enterState st timer t s).keypad = s.keypad := by
  simp only [enterState, hostPowerOn]; (repeat' split) <;> simp

@[simp] theorem enterState_mgmt (st : Liveness) (timer : Option Timer) (t : Instant) (s : State) :
    (enterState st timer t s).mgmt = s.mgmt := by
  simp only [enterState, hostPowerOn]; (repeat' split) <;> simp

@[simp] theorem enterState_tables (st : Liveness) (timer : Option Timer) (t : Instant) (s : State) :
    (enterState st timer t s).tables = s.tables := by
  simp only [enterState, hostPowerOn]; (repeat' split) <;> simp

@[simp] theorem enterState_store (st : Liveness) (timer : Option Timer) (t : Instant) (s : State) :
    (enterState st timer t s).store = s.store := by
  simp only [enterState, hostPowerOn]; (repeat' split) <;> simp

/-! ### enterPowering -/

@[simp] theorem enterPowering_pending (t : Instant) (s : State) : (enterPowering t s).pending = s.pending := by
  simp [enterPowering]

@[simp] theorem enterPowering_clock (t : Instant) (s : State) : (enterPowering t s).clock = s.clock := by
  simp [enterPowering]

@[simp] theorem enterPowering_pool (t : Instant) (s : State) : (enterPowering t s).pool = s.pool := by
  simp [enterPowering]

@[simp] theorem enterPowering_hostPort (t : Instant) (s : State) : (enterPowering t s).hostPort = s.hostPort := by
  simp [enterPowering]

@[simp] theorem enterPowering_noticeNo (t : Instant) (s : State) : (enterPowering t s).noticeNo = s.noticeNo := by
  simp [enterPowering]

@[simp] theorem enterPowering_flags (t : Instant) (s : State) : (enterPowering t s).flags = s.flags := by
  simp [enterPowering]

@[simp] theorem enterPowering_log (t : Instant) (s : State) : (enterPowering t s).log = s.log := by
  simp [enterPowering]

@[simp] theorem enterPowering_temp (t : Instant) (s : State) : (enterPowering t s).temp = s.temp := by
  simp [enterPowering]

@[simp] theorem enterPowering_fan (t : Instant) (s : State) : (enterPowering t s).fan = s.fan := by
  simp [enterPowering]

@[simp] theorem enterPowering_keypad (t : Instant) (s : State) : (enterPowering t s).keypad = s.keypad := by
  simp [enterPowering]

@[simp] theorem enterPowering_mgmt (t : Instant) (s : State) : (enterPowering t s).mgmt = s.mgmt := by
  simp [enterPowering]

@[simp] theorem enterPowering_tables (t : Instant) (s : State) : (enterPowering t s).tables = s.tables := by
  simp [enterPowering]

@[simp] theorem enterPowering_store (t : Instant) (s : State) : (enterPowering t s).store = s.store := by
  simp [enterPowering]

/-! ### leaveColdHold -/

@[simp] theorem leaveColdHold_pending (t : Instant) (s : State) : (leaveColdHold t s).pending = s.pending := by
  unfold leaveColdHold; split <;> simp

@[simp] theorem leaveColdHold_clock (t : Instant) (s : State) : (leaveColdHold t s).clock = s.clock := by
  unfold leaveColdHold; split <;> simp

@[simp] theorem leaveColdHold_pool (t : Instant) (s : State) : (leaveColdHold t s).pool = s.pool := by
  unfold leaveColdHold; split <;> simp

@[simp] theorem leaveColdHold_hostPort (t : Instant) (s : State) : (leaveColdHold t s).hostPort = s.hostPort := by
  unfold leaveColdHold; split <;> simp

@[simp] theorem leaveColdHold_noticeNo (t : Instant) (s : State) : (leaveColdHold t s).noticeNo = s.noticeNo := by
  unfold leaveColdHold; split <;> simp

@[simp] theorem leaveColdHold_flags (t : Instant) (s : State) : (leaveColdHold t s).flags = s.flags := by
  unfold leaveColdHold; split <;> simp

@[simp] theorem leaveColdHold_log (t : Instant) (s : State) : (leaveColdHold t s).log = s.log := by
  unfold leaveColdHold; split <;> simp

@[simp] theorem leaveColdHold_temp (t : Instant) (s : State) : (leaveColdHold t s).temp = s.temp := by
  unfold leaveColdHold; split <;> simp

@[simp] theorem leaveColdHold_fan (t : Instant) (s : State) : (leaveColdHold t s).fan = s.fan := by
  unfold leaveColdHold; split <;> simp

@[simp] theorem leaveColdHold_keypad (t : Instant) (s : State) : (leaveColdHold t s).keypad = s.keypad := by
  unfold leaveColdHold; split <;> simp

@[simp] theorem leaveColdHold_mgmt (t : Instant) (s : State) : (leaveColdHold t s).mgmt = s.mgmt := by
  unfold leaveColdHold; split <;> simp

@[simp] theorem leaveColdHold_tables (t : Instant) (s : State) : (leaveColdHold t s).tables = s.tables := by
  unfold leaveColdHold; split <;> simp

@[simp] theorem leaveColdHold_store (t : Instant) (s : State) : (leaveColdHold t s).store = s.store := by
  unfold leaveColdHold; split <;> simp

/-! ### enterColdHold -/

@[simp] theorem enterColdHold_pending (t : Instant) (s : State) : (enterColdHold t s).pending = s.pending := by
  simp [enterColdHold]

@[simp] theorem enterColdHold_clock (t : Instant) (s : State) : (enterColdHold t s).clock = s.clock := by
  simp [enterColdHold]

@[simp] theorem enterColdHold_pool (t : Instant) (s : State) : (enterColdHold t s).pool = s.pool := by
  simp [enterColdHold]

@[simp] theorem enterColdHold_hostPort (t : Instant) (s : State) : (enterColdHold t s).hostPort = s.hostPort := by
  simp [enterColdHold]

@[simp] theorem enterColdHold_noticeNo (t : Instant) (s : State) : (enterColdHold t s).noticeNo = s.noticeNo := by
  simp [enterColdHold]

@[simp] theorem enterColdHold_flags (t : Instant) (s : State) : (enterColdHold t s).flags = s.flags := by
  simp [enterColdHold]

@[simp] theorem enterColdHold_log (t : Instant) (s : State) : (enterColdHold t s).log = s.log := by
  simp [enterColdHold]

@[simp] theorem enterColdHold_fan (t : Instant) (s : State) : (enterColdHold t s).fan = s.fan := by
  simp [enterColdHold]

@[simp] theorem enterColdHold_keypad (t : Instant) (s : State) : (enterColdHold t s).keypad = s.keypad := by
  simp [enterColdHold]

@[simp] theorem enterColdHold_mgmt (t : Instant) (s : State) : (enterColdHold t s).mgmt = s.mgmt := by
  simp [enterColdHold]

@[simp] theorem enterColdHold_tables (t : Instant) (s : State) : (enterColdHold t s).tables = s.tables := by
  simp [enterColdHold]

@[simp] theorem enterColdHold_store (t : Instant) (s : State) : (enterColdHold t s).store = s.store := by
  simp [enterColdHold]

/-! ### enterBooting -/

@[simp] theorem enterBooting_pending (t : Instant) (s : State) : (enterBooting t s).pending = s.pending := by
  simp [enterBooting]

@[simp] theorem enterBooting_clock (t : Instant) (s : State) : (enterBooting t s).clock = s.clock := by
  simp [enterBooting]

@[simp] theorem enterBooting_pool (t : Instant) (s : State) : (enterBooting t s).pool = s.pool := by
  simp [enterBooting]

@[simp] theorem enterBooting_hostPort (t : Instant) (s : State) : (enterBooting t s).hostPort = s.hostPort := by
  simp [enterBooting]

@[simp] theorem enterBooting_noticeNo (t : Instant) (s : State) : (enterBooting t s).noticeNo = s.noticeNo := by
  simp [enterBooting]

@[simp] theorem enterBooting_flags (t : Instant) (s : State) : (enterBooting t s).flags = s.flags := by
  simp [enterBooting]

@[simp] theorem enterBooting_log (t : Instant) (s : State) : (enterBooting t s).log = s.log := by simp [enterBooting]

@[simp] theorem enterBooting_temp (t : Instant) (s : State) : (enterBooting t s).temp = s.temp := by
  simp [enterBooting]

@[simp] theorem enterBooting_fan (t : Instant) (s : State) : (enterBooting t s).fan = s.fan := by simp [enterBooting]

@[simp] theorem enterBooting_keypad (t : Instant) (s : State) : (enterBooting t s).keypad = s.keypad := by
  simp [enterBooting]

@[simp] theorem enterBooting_mgmt (t : Instant) (s : State) : (enterBooting t s).mgmt = s.mgmt := by
  simp [enterBooting]

@[simp] theorem enterBooting_tables (t : Instant) (s : State) : (enterBooting t s).tables = s.tables := by
  simp [enterBooting]

@[simp] theorem enterBooting_store (t : Instant) (s : State) : (enterBooting t s).store = s.store := by
  simp [enterBooting]

/-! ### enterRunning -/

@[simp] theorem enterRunning_pending (t : Instant) (s : State) : (enterRunning t s).pending = s.pending := by
  simp only [enterRunning]; split <;> simp

@[simp] theorem enterRunning_clock (t : Instant) (s : State) : (enterRunning t s).clock = s.clock := by
  simp only [enterRunning]; split <;> simp

@[simp] theorem enterRunning_pool (t : Instant) (s : State) : (enterRunning t s).pool = s.pool := by
  simp only [enterRunning]; split <;> simp

@[simp] theorem enterRunning_hostPort (t : Instant) (s : State) : (enterRunning t s).hostPort = s.hostPort := by
  simp only [enterRunning]; split <;> simp

@[simp] theorem enterRunning_noticeNo (t : Instant) (s : State) : (enterRunning t s).noticeNo = s.noticeNo := by
  simp only [enterRunning]; split <;> simp

@[simp] theorem enterRunning_flags (t : Instant) (s : State) : (enterRunning t s).flags = s.flags := by
  simp only [enterRunning]; split <;> simp

@[simp] theorem enterRunning_log (t : Instant) (s : State) : (enterRunning t s).log = s.log := by
  simp only [enterRunning]; split <;> simp

@[simp] theorem enterRunning_temp (t : Instant) (s : State) : (enterRunning t s).temp = s.temp := by
  simp only [enterRunning]; split <;> simp

@[simp] theorem enterRunning_fan (t : Instant) (s : State) : (enterRunning t s).fan = s.fan := by
  simp only [enterRunning]; split <;> simp

@[simp] theorem enterRunning_keypad (t : Instant) (s : State) : (enterRunning t s).keypad = s.keypad := by
  simp only [enterRunning]; split <;> simp

@[simp] theorem enterRunning_mgmt (t : Instant) (s : State) : (enterRunning t s).mgmt = s.mgmt := by
  simp only [enterRunning]; split <;> simp

@[simp] theorem enterRunning_tables (t : Instant) (s : State) : (enterRunning t s).tables = s.tables := by
  simp only [enterRunning]; split <;> simp

@[simp] theorem enterRunning_store (t : Instant) (s : State) : (enterRunning t s).store = s.store := by
  simp only [enterRunning]; split <;> simp

/-! ### enterResetting -/

@[simp] theorem enterResetting_pending (t : Instant) (s : State) : (enterResetting t s).pending = s.pending := by
  simp [enterResetting]

@[simp] theorem enterResetting_clock (t : Instant) (s : State) : (enterResetting t s).clock = s.clock := by
  simp [enterResetting]

@[simp] theorem enterResetting_pool (t : Instant) (s : State) : (enterResetting t s).pool = s.pool := by
  simp [enterResetting]

@[simp] theorem enterResetting_hostPort (t : Instant) (s : State) :
    (enterResetting t s).hostPort = s.hostPort := by
  simp [enterResetting]

@[simp] theorem enterResetting_noticeNo (t : Instant) (s : State) :
    (enterResetting t s).noticeNo = s.noticeNo := by
  simp [enterResetting]

@[simp] theorem enterResetting_flags (t : Instant) (s : State) : (enterResetting t s).flags = s.flags := by
  simp [enterResetting]

@[simp] theorem enterResetting_log (t : Instant) (s : State) : (enterResetting t s).log = s.log := by
  simp [enterResetting]

@[simp] theorem enterResetting_temp (t : Instant) (s : State) : (enterResetting t s).temp = s.temp := by
  simp [enterResetting]

@[simp] theorem enterResetting_fan (t : Instant) (s : State) : (enterResetting t s).fan = s.fan := by
  simp [enterResetting]

@[simp] theorem enterResetting_keypad (t : Instant) (s : State) : (enterResetting t s).keypad = s.keypad := by
  simp [enterResetting]

@[simp] theorem enterResetting_mgmt (t : Instant) (s : State) : (enterResetting t s).mgmt = s.mgmt := by
  simp [enterResetting]

@[simp] theorem enterResetting_tables (t : Instant) (s : State) : (enterResetting t s).tables = s.tables := by
  simp [enterResetting]

@[simp] theorem enterResetting_store (t : Instant) (s : State) : (enterResetting t s).store = s.store := by
  simp [enterResetting]

/-! ### enterCycling -/

@[simp] theorem enterCycling_pending (t : Instant) (s : State) : (enterCycling t s).pending = s.pending := by
  simp [enterCycling]

@[simp] theorem enterCycling_clock (t : Instant) (s : State) : (enterCycling t s).clock = s.clock := by
  simp [enterCycling]

@[simp] theorem enterCycling_pool (t : Instant) (s : State) : (enterCycling t s).pool = s.pool := by
  simp [enterCycling]

@[simp] theorem enterCycling_hostPort (t : Instant) (s : State) : (enterCycling t s).hostPort = s.hostPort := by
  simp [enterCycling]

@[simp] theorem enterCycling_noticeNo (t : Instant) (s : State) : (enterCycling t s).noticeNo = s.noticeNo := by
  simp [enterCycling]

@[simp] theorem enterCycling_flags (t : Instant) (s : State) : (enterCycling t s).flags = s.flags := by
  simp [enterCycling]

@[simp] theorem enterCycling_log (t : Instant) (s : State) : (enterCycling t s).log = s.log := by simp [enterCycling]

@[simp] theorem enterCycling_temp (t : Instant) (s : State) : (enterCycling t s).temp = s.temp := by
  simp [enterCycling]

@[simp] theorem enterCycling_fan (t : Instant) (s : State) : (enterCycling t s).fan = s.fan := by simp [enterCycling]

@[simp] theorem enterCycling_keypad (t : Instant) (s : State) : (enterCycling t s).keypad = s.keypad := by
  simp [enterCycling]

@[simp] theorem enterCycling_mgmt (t : Instant) (s : State) : (enterCycling t s).mgmt = s.mgmt := by
  simp [enterCycling]

@[simp] theorem enterCycling_tables (t : Instant) (s : State) : (enterCycling t s).tables = s.tables := by
  simp [enterCycling]

@[simp] theorem enterCycling_store (t : Instant) (s : State) : (enterCycling t s).store = s.store := by
  simp [enterCycling]

/-! ### enterWarned -/

@[simp] theorem enterWarned_pending (t : Instant) (s : State) : (enterWarned t s).pending = s.pending := by
  simp [enterWarned]

@[simp] theorem enterWarned_clock (t : Instant) (s : State) : (enterWarned t s).clock = s.clock := by
  simp [enterWarned]

@[simp] theorem enterWarned_flags (t : Instant) (s : State) : (enterWarned t s).flags = s.flags := by
  simp [enterWarned]

@[simp] theorem enterWarned_log (t : Instant) (s : State) : (enterWarned t s).log = s.log := by simp [enterWarned]

@[simp] theorem enterWarned_temp (t : Instant) (s : State) : (enterWarned t s).temp = s.temp := by simp [enterWarned]

@[simp] theorem enterWarned_fan (t : Instant) (s : State) : (enterWarned t s).fan = s.fan := by simp [enterWarned]

@[simp] theorem enterWarned_keypad (t : Instant) (s : State) : (enterWarned t s).keypad = s.keypad := by
  simp [enterWarned]

@[simp] theorem enterWarned_mgmt (t : Instant) (s : State) : (enterWarned t s).mgmt = s.mgmt := by simp [enterWarned]

@[simp] theorem enterWarned_tables (t : Instant) (s : State) : (enterWarned t s).tables = s.tables := by
  simp [enterWarned]

@[simp] theorem enterWarned_store (t : Instant) (s : State) : (enterWarned t s).store = s.store := by
  simp [enterWarned]

/-! ### acceptHeartbeat -/

@[simp] theorem acceptHeartbeat_pending (t : Instant) (s : State) : (acceptHeartbeat t s).pending = s.pending := by
  unfold acceptHeartbeat; split <;> simp

@[simp] theorem acceptHeartbeat_clock (t : Instant) (s : State) : (acceptHeartbeat t s).clock = s.clock := by
  unfold acceptHeartbeat; split <;> simp

@[simp] theorem acceptHeartbeat_pool (t : Instant) (s : State) : (acceptHeartbeat t s).pool = s.pool := by
  unfold acceptHeartbeat; split <;> simp

@[simp] theorem acceptHeartbeat_hostPort (t : Instant) (s : State) :
    (acceptHeartbeat t s).hostPort = s.hostPort := by
  unfold acceptHeartbeat; split <;> simp

@[simp] theorem acceptHeartbeat_noticeNo (t : Instant) (s : State) :
    (acceptHeartbeat t s).noticeNo = s.noticeNo := by
  unfold acceptHeartbeat; split <;> simp

@[simp] theorem acceptHeartbeat_flags (t : Instant) (s : State) : (acceptHeartbeat t s).flags = s.flags := by
  unfold acceptHeartbeat; split <;> simp

@[simp] theorem acceptHeartbeat_log (t : Instant) (s : State) : (acceptHeartbeat t s).log = s.log := by
  unfold acceptHeartbeat; split <;> simp

@[simp] theorem acceptHeartbeat_temp (t : Instant) (s : State) : (acceptHeartbeat t s).temp = s.temp := by
  unfold acceptHeartbeat; split <;> simp

@[simp] theorem acceptHeartbeat_fan (t : Instant) (s : State) : (acceptHeartbeat t s).fan = s.fan := by
  unfold acceptHeartbeat; split <;> simp

@[simp] theorem acceptHeartbeat_keypad (t : Instant) (s : State) : (acceptHeartbeat t s).keypad = s.keypad := by
  unfold acceptHeartbeat; split <;> simp

@[simp] theorem acceptHeartbeat_mgmt (t : Instant) (s : State) : (acceptHeartbeat t s).mgmt = s.mgmt := by
  unfold acceptHeartbeat; split <;> simp

@[simp] theorem acceptHeartbeat_tables (t : Instant) (s : State) : (acceptHeartbeat t s).tables = s.tables := by
  unfold acceptHeartbeat; split <;> simp

@[simp] theorem acceptHeartbeat_store (t : Instant) (s : State) : (acceptHeartbeat t s).store = s.store := by
  unfold acceptHeartbeat; split <;> simp

/-! ### trafficHeartbeat -/

@[simp] theorem trafficHeartbeat_pending (t : Instant) (s : State) :
    (trafficHeartbeat t s).pending = s.pending := by
  unfold trafficHeartbeat; split <;> simp

@[simp] theorem trafficHeartbeat_clock (t : Instant) (s : State) : (trafficHeartbeat t s).clock = s.clock := by
  unfold trafficHeartbeat; split <;> simp

@[simp] theorem trafficHeartbeat_pool (t : Instant) (s : State) : (trafficHeartbeat t s).pool = s.pool := by
  unfold trafficHeartbeat; split <;> simp

@[simp] theorem trafficHeartbeat_hostPort (t : Instant) (s : State) :
    (trafficHeartbeat t s).hostPort = s.hostPort := by
  unfold trafficHeartbeat; split <;> simp

@[simp] theorem trafficHeartbeat_noticeNo (t : Instant) (s : State) :
    (trafficHeartbeat t s).noticeNo = s.noticeNo := by
  unfold trafficHeartbeat; split <;> simp

@[simp] theorem trafficHeartbeat_flags (t : Instant) (s : State) : (trafficHeartbeat t s).flags = s.flags := by
  unfold trafficHeartbeat; split <;> simp

@[simp] theorem trafficHeartbeat_log (t : Instant) (s : State) : (trafficHeartbeat t s).log = s.log := by
  unfold trafficHeartbeat; split <;> simp

@[simp] theorem trafficHeartbeat_temp (t : Instant) (s : State) : (trafficHeartbeat t s).temp = s.temp := by
  unfold trafficHeartbeat; split <;> simp

@[simp] theorem trafficHeartbeat_fan (t : Instant) (s : State) : (trafficHeartbeat t s).fan = s.fan := by
  unfold trafficHeartbeat; split <;> simp

@[simp] theorem trafficHeartbeat_keypad (t : Instant) (s : State) : (trafficHeartbeat t s).keypad = s.keypad := by
  unfold trafficHeartbeat; split <;> simp

@[simp] theorem trafficHeartbeat_mgmt (t : Instant) (s : State) : (trafficHeartbeat t s).mgmt = s.mgmt := by
  unfold trafficHeartbeat; split <;> simp

@[simp] theorem trafficHeartbeat_tables (t : Instant) (s : State) : (trafficHeartbeat t s).tables = s.tables := by
  unfold trafficHeartbeat; split <;> simp

@[simp] theorem trafficHeartbeat_store (t : Instant) (s : State) : (trafficHeartbeat t s).store = s.store := by
  unfold trafficHeartbeat; split <;> simp

/-! ### makeRestart -/

@[simp] theorem makeRestart_pending (cause : RestartCause) (t : Instant) (s : State) :
    (makeRestart cause t s).pending = s.pending := by
  simp only [makeRestart]; split <;> simp

@[simp] theorem makeRestart_clock (cause : RestartCause) (t : Instant) (s : State) :
    (makeRestart cause t s).clock = s.clock := by
  simp only [makeRestart]; split <;> simp

@[simp] theorem makeRestart_pool (cause : RestartCause) (t : Instant) (s : State) :
    (makeRestart cause t s).pool = s.pool := by
  simp only [makeRestart]; split <;> simp

@[simp] theorem makeRestart_hostPort (cause : RestartCause) (t : Instant) (s : State) :
    (makeRestart cause t s).hostPort = s.hostPort := by
  simp only [makeRestart]; split <;> simp

@[simp] theorem makeRestart_noticeNo (cause : RestartCause) (t : Instant) (s : State) :
    (makeRestart cause t s).noticeNo = s.noticeNo := by
  simp only [makeRestart]; split <;> simp

@[simp] theorem makeRestart_flags (cause : RestartCause) (t : Instant) (s : State) :
    (makeRestart cause t s).flags = s.flags := by
  simp only [makeRestart]; split <;> simp

@[simp] theorem makeRestart_temp (cause : RestartCause) (t : Instant) (s : State) :
    (makeRestart cause t s).temp = s.temp := by
  simp only [makeRestart]; split <;> simp

@[simp] theorem makeRestart_fan (cause : RestartCause) (t : Instant) (s : State) :
    (makeRestart cause t s).fan = s.fan := by
  simp only [makeRestart]; split <;> simp

@[simp] theorem makeRestart_keypad (cause : RestartCause) (t : Instant) (s : State) :
    (makeRestart cause t s).keypad = s.keypad := by
  simp only [makeRestart]; split <;> simp

@[simp] theorem makeRestart_mgmt (cause : RestartCause) (t : Instant) (s : State) :
    (makeRestart cause t s).mgmt = s.mgmt := by
  simp only [makeRestart]; split <;> simp

@[simp] theorem makeRestart_tables (cause : RestartCause) (t : Instant) (s : State) :
    (makeRestart cause t s).tables = s.tables := by
  simp only [makeRestart]; split <;> simp

@[simp] theorem makeRestart_store (cause : RestartCause) (t : Instant) (s : State) :
    (makeRestart cause t s).store = s.store := by
  simp only [makeRestart]; split <;> simp

/-! ### countedRestart -/

@[simp] theorem countedRestart_pending (cause : RestartCause) (t : Instant) (s : State) :
    (countedRestart cause t s).pending = s.pending := by
  simp only [countedRestart, latch]; split <;> simp

@[simp] theorem countedRestart_clock (cause : RestartCause) (t : Instant) (s : State) :
    (countedRestart cause t s).clock = s.clock := by
  simp only [countedRestart, latch]; split <;> simp

@[simp] theorem countedRestart_pool (cause : RestartCause) (t : Instant) (s : State) :
    (countedRestart cause t s).pool = s.pool := by
  simp only [countedRestart, latch]; split <;> simp

@[simp] theorem countedRestart_hostPort (cause : RestartCause) (t : Instant) (s : State) :
    (countedRestart cause t s).hostPort = s.hostPort := by
  simp only [countedRestart, latch]; split <;> simp

@[simp] theorem countedRestart_noticeNo (cause : RestartCause) (t : Instant) (s : State) :
    (countedRestart cause t s).noticeNo = s.noticeNo := by
  simp only [countedRestart, latch]; split <;> simp

@[simp] theorem countedRestart_flags (cause : RestartCause) (t : Instant) (s : State) :
    (countedRestart cause t s).flags = s.flags := by
  simp only [countedRestart, latch]; split <;> simp

@[simp] theorem countedRestart_temp (cause : RestartCause) (t : Instant) (s : State) :
    (countedRestart cause t s).temp = s.temp := by
  simp only [countedRestart, latch]; split <;> simp

@[simp] theorem countedRestart_fan (cause : RestartCause) (t : Instant) (s : State) :
    (countedRestart cause t s).fan = s.fan := by
  simp only [countedRestart, latch]; split <;> simp

@[simp] theorem countedRestart_keypad (cause : RestartCause) (t : Instant) (s : State) :
    (countedRestart cause t s).keypad = s.keypad := by
  simp only [countedRestart, latch]; split <;> simp

@[simp] theorem countedRestart_mgmt (cause : RestartCause) (t : Instant) (s : State) :
    (countedRestart cause t s).mgmt = s.mgmt := by
  simp only [countedRestart, latch]; split <;> simp

@[simp] theorem countedRestart_tables (cause : RestartCause) (t : Instant) (s : State) :
    (countedRestart cause t s).tables = s.tables := by
  simp only [countedRestart, latch]; split <;> simp

@[simp] theorem countedRestart_store (cause : RestartCause) (t : Instant) (s : State) :
    (countedRestart cause t s).store = s.store := by
  simp only [countedRestart, latch]; split <;> simp

/-! ### uncountedRestart -/

@[simp] theorem uncountedRestart_pending (cause : RestartCause) (cycle : Bool) (t : Instant) (s : State) :
    (uncountedRestart cause cycle t s).pending = s.pending := by
  simp only [uncountedRestart]; split <;> simp

@[simp] theorem uncountedRestart_clock (cause : RestartCause) (cycle : Bool) (t : Instant) (s : State) :
    (uncountedRestart cause cycle t s).clock = s.clock := by
  simp only [uncountedRestart]; split <;> simp

@[simp] theorem uncountedRestart_pool (cause : RestartCause) (cycle : Bool) (t : Instant) (s : State) :
    (uncountedRestart cause cycle t s).pool = s.pool := by
  simp only [uncountedRestart]; split <;> simp

@[simp] theorem uncountedRestart_hostPort (cause : RestartCause) (cycle : Bool) (t : Instant) (s : State) :
    (uncountedRestart cause cycle t s).hostPort = s.hostPort := by
  simp only [uncountedRestart]; split <;> simp

@[simp] theorem uncountedRestart_noticeNo (cause : RestartCause) (cycle : Bool) (t : Instant) (s : State) :
    (uncountedRestart cause cycle t s).noticeNo = s.noticeNo := by
  simp only [uncountedRestart]; split <;> simp

@[simp] theorem uncountedRestart_flags (cause : RestartCause) (cycle : Bool) (t : Instant) (s : State) :
    (uncountedRestart cause cycle t s).flags = s.flags := by
  simp only [uncountedRestart]; split <;> simp

@[simp] theorem uncountedRestart_temp (cause : RestartCause) (cycle : Bool) (t : Instant) (s : State) :
    (uncountedRestart cause cycle t s).temp = s.temp := by
  simp only [uncountedRestart]; split <;> simp

@[simp] theorem uncountedRestart_fan (cause : RestartCause) (cycle : Bool) (t : Instant) (s : State) :
    (uncountedRestart cause cycle t s).fan = s.fan := by
  simp only [uncountedRestart]; split <;> simp

@[simp] theorem uncountedRestart_keypad (cause : RestartCause) (cycle : Bool) (t : Instant) (s : State) :
    (uncountedRestart cause cycle t s).keypad = s.keypad := by
  simp only [uncountedRestart]; split <;> simp

@[simp] theorem uncountedRestart_mgmt (cause : RestartCause) (cycle : Bool) (t : Instant) (s : State) :
    (uncountedRestart cause cycle t s).mgmt = s.mgmt := by
  simp only [uncountedRestart]; split <;> simp

@[simp] theorem uncountedRestart_tables (cause : RestartCause) (cycle : Bool) (t : Instant) (s : State) :
    (uncountedRestart cause cycle t s).tables = s.tables := by
  simp only [uncountedRestart]; split <;> simp

@[simp] theorem uncountedRestart_store (cause : RestartCause) (cycle : Bool) (t : Instant) (s : State) :
    (uncountedRestart cause cycle t s).store = s.store := by
  simp only [uncountedRestart]; split <;> simp

/-! ### releaseHost -/

@[simp] theorem releaseHost_pending (t : Instant) (s : State) : (releaseHost t s).pending = s.pending := by
  unfold releaseHost; split <;> simp

@[simp] theorem releaseHost_clock (t : Instant) (s : State) : (releaseHost t s).clock = s.clock := by
  unfold releaseHost; split <;> simp

@[simp] theorem releaseHost_pool (t : Instant) (s : State) : (releaseHost t s).pool = s.pool := by
  unfold releaseHost; split <;> simp

@[simp] theorem releaseHost_hostPort (t : Instant) (s : State) : (releaseHost t s).hostPort = s.hostPort := by
  unfold releaseHost; split <;> simp

@[simp] theorem releaseHost_noticeNo (t : Instant) (s : State) : (releaseHost t s).noticeNo = s.noticeNo := by
  unfold releaseHost; split <;> simp

@[simp] theorem releaseHost_flags (t : Instant) (s : State) : (releaseHost t s).flags = s.flags := by
  unfold releaseHost; split <;> simp

@[simp] theorem releaseHost_log (t : Instant) (s : State) : (releaseHost t s).log = s.log := by
  unfold releaseHost; split <;> simp

@[simp] theorem releaseHost_fan (t : Instant) (s : State) : (releaseHost t s).fan = s.fan := by
  unfold releaseHost; split <;> simp

@[simp] theorem releaseHost_keypad (t : Instant) (s : State) : (releaseHost t s).keypad = s.keypad := by
  unfold releaseHost; split <;> simp

@[simp] theorem releaseHost_mgmt (t : Instant) (s : State) : (releaseHost t s).mgmt = s.mgmt := by
  unfold releaseHost; split <;> simp

@[simp] theorem releaseHost_tables (t : Instant) (s : State) : (releaseHost t s).tables = s.tables := by
  unfold releaseHost; split <;> simp

@[simp] theorem releaseHost_store (t : Instant) (s : State) : (releaseHost t s).store = s.store := by
  unfold releaseHost; split <;> simp

/-! ### finishStop -/

@[simp] theorem finishStop_pending (t : Instant) (s : State) : (finishStop t s).pending = s.pending := by
  simp [finishStop]

@[simp] theorem finishStop_clock (t : Instant) (s : State) : (finishStop t s).clock = s.clock := by simp [finishStop]

@[simp] theorem finishStop_pool (t : Instant) (s : State) : (finishStop t s).pool = s.pool := by simp [finishStop]

@[simp] theorem finishStop_hostPort (t : Instant) (s : State) : (finishStop t s).hostPort = s.hostPort := by
  simp [finishStop]

@[simp] theorem finishStop_noticeNo (t : Instant) (s : State) : (finishStop t s).noticeNo = s.noticeNo := by
  simp [finishStop]

@[simp] theorem finishStop_flags (t : Instant) (s : State) : (finishStop t s).flags = s.flags := by simp [finishStop]

@[simp] theorem finishStop_temp (t : Instant) (s : State) : (finishStop t s).temp = s.temp := by simp [finishStop]

@[simp] theorem finishStop_fan (t : Instant) (s : State) : (finishStop t s).fan = s.fan := by simp [finishStop]

@[simp] theorem finishStop_keypad (t : Instant) (s : State) : (finishStop t s).keypad = s.keypad := by
  simp [finishStop]

@[simp] theorem finishStop_mgmt (t : Instant) (s : State) : (finishStop t s).mgmt = s.mgmt := by simp [finishStop]

@[simp] theorem finishStop_tables (t : Instant) (s : State) : (finishStop t s).tables = s.tables := by
  simp [finishStop]

@[simp] theorem finishStop_store (t : Instant) (s : State) : (finishStop t s).store = s.store := by simp [finishStop]

/-! ### hotRaised -/

@[simp] theorem hotRaised_pending (t : Instant) (s : State) : (hotRaised t s).pending = s.pending := by
  unfold hotRaised; split <;> simp

@[simp] theorem hotRaised_clock (t : Instant) (s : State) : (hotRaised t s).clock = s.clock := by
  unfold hotRaised; split <;> simp

@[simp] theorem hotRaised_pool (t : Instant) (s : State) : (hotRaised t s).pool = s.pool := by
  unfold hotRaised; split <;> simp

@[simp] theorem hotRaised_hostPort (t : Instant) (s : State) : (hotRaised t s).hostPort = s.hostPort := by
  unfold hotRaised; split <;> simp

@[simp] theorem hotRaised_noticeNo (t : Instant) (s : State) : (hotRaised t s).noticeNo = s.noticeNo := by
  unfold hotRaised; split <;> simp

@[simp] theorem hotRaised_flags (t : Instant) (s : State) : (hotRaised t s).flags = s.flags := by
  unfold hotRaised; split <;> simp

@[simp] theorem hotRaised_temp (t : Instant) (s : State) : (hotRaised t s).temp = s.temp := by
  unfold hotRaised; split <;> simp

@[simp] theorem hotRaised_fan (t : Instant) (s : State) : (hotRaised t s).fan = s.fan := by
  unfold hotRaised; split <;> simp

@[simp] theorem hotRaised_keypad (t : Instant) (s : State) : (hotRaised t s).keypad = s.keypad := by
  unfold hotRaised; split <;> simp

@[simp] theorem hotRaised_mgmt (t : Instant) (s : State) : (hotRaised t s).mgmt = s.mgmt := by
  unfold hotRaised; split <;> simp

@[simp] theorem hotRaised_tables (t : Instant) (s : State) : (hotRaised t s).tables = s.tables := by
  unfold hotRaised; split <;> simp

@[simp] theorem hotRaised_store (t : Instant) (s : State) : (hotRaised t s).store = s.store := by
  unfold hotRaised; split <;> simp

/-! ### hotCleared -/

@[simp] theorem hotCleared_pending (t : Instant) (s : State) : (hotCleared t s).pending = s.pending := by
  unfold hotCleared; split <;> simp

@[simp] theorem hotCleared_clock (t : Instant) (s : State) : (hotCleared t s).clock = s.clock := by
  unfold hotCleared; split <;> simp

@[simp] theorem hotCleared_pool (t : Instant) (s : State) : (hotCleared t s).pool = s.pool := by
  unfold hotCleared; split <;> simp

@[simp] theorem hotCleared_hostPort (t : Instant) (s : State) : (hotCleared t s).hostPort = s.hostPort := by
  unfold hotCleared; split <;> simp

@[simp] theorem hotCleared_noticeNo (t : Instant) (s : State) : (hotCleared t s).noticeNo = s.noticeNo := by
  unfold hotCleared; split <;> simp

@[simp] theorem hotCleared_flags (t : Instant) (s : State) : (hotCleared t s).flags = s.flags := by
  unfold hotCleared; split <;> simp

@[simp] theorem hotCleared_log (t : Instant) (s : State) : (hotCleared t s).log = s.log := by
  unfold hotCleared; split <;> simp

@[simp] theorem hotCleared_fan (t : Instant) (s : State) : (hotCleared t s).fan = s.fan := by
  unfold hotCleared; split <;> simp

@[simp] theorem hotCleared_keypad (t : Instant) (s : State) : (hotCleared t s).keypad = s.keypad := by
  unfold hotCleared; split <;> simp

@[simp] theorem hotCleared_mgmt (t : Instant) (s : State) : (hotCleared t s).mgmt = s.mgmt := by
  unfold hotCleared; split <;> simp

@[simp] theorem hotCleared_tables (t : Instant) (s : State) : (hotCleared t s).tables = s.tables := by
  unfold hotCleared; split <;> simp

@[simp] theorem hotCleared_store (t : Instant) (s : State) : (hotCleared t s).store = s.store := by
  unfold hotCleared; split <;> simp

/-! ### startStop -/

@[simp] theorem startStop_pending (delay : Nat) (t : Instant) (s : State) :
    (startStop delay t s).pending = s.pending := by
  simp only [startStop]; (repeat' split) <;> simp

@[simp] theorem startStop_clock (delay : Nat) (t : Instant) (s : State) :
    (startStop delay t s).clock = s.clock := by
  simp only [startStop]; (repeat' split) <;> simp

@[simp] theorem startStop_pool (delay : Nat) (t : Instant) (s : State) : (startStop delay t s).pool = s.pool := by
  simp only [startStop]; (repeat' split) <;> simp

@[simp] theorem startStop_hostPort (delay : Nat) (t : Instant) (s : State) :
    (startStop delay t s).hostPort = s.hostPort := by
  simp only [startStop]; (repeat' split) <;> simp

@[simp] theorem startStop_noticeNo (delay : Nat) (t : Instant) (s : State) :
    (startStop delay t s).noticeNo = s.noticeNo := by
  simp only [startStop]; (repeat' split) <;> simp

@[simp] theorem startStop_flags (delay : Nat) (t : Instant) (s : State) :
    (startStop delay t s).flags = s.flags := by
  simp only [startStop]; (repeat' split) <;> simp

@[simp] theorem startStop_temp (delay : Nat) (t : Instant) (s : State) : (startStop delay t s).temp = s.temp := by
  simp only [startStop]; (repeat' split) <;> simp

@[simp] theorem startStop_fan (delay : Nat) (t : Instant) (s : State) : (startStop delay t s).fan = s.fan := by
  simp only [startStop]; (repeat' split) <;> simp

@[simp] theorem startStop_keypad (delay : Nat) (t : Instant) (s : State) :
    (startStop delay t s).keypad = s.keypad := by
  simp only [startStop]; (repeat' split) <;> simp

@[simp] theorem startStop_mgmt (delay : Nat) (t : Instant) (s : State) : (startStop delay t s).mgmt = s.mgmt := by
  simp only [startStop]; (repeat' split) <;> simp

@[simp] theorem startStop_tables (delay : Nat) (t : Instant) (s : State) :
    (startStop delay t s).tables = s.tables := by
  simp only [startStop]; (repeat' split) <;> simp

@[simp] theorem startStop_store (delay : Nat) (t : Instant) (s : State) :
    (startStop delay t s).store = s.store := by
  simp only [startStop]; (repeat' split) <;> simp

/-! ### enqueueReplyBuffer -/

@[simp] theorem enqueueReplyBuffer_pending (p : Port) (b : BufferId) (s : State) :
    (enqueueReplyBuffer p b s).pending = s.pending := by
  cases p <;> rfl

@[simp] theorem enqueueReplyBuffer_clock (p : Port) (b : BufferId) (s : State) :
    (enqueueReplyBuffer p b s).clock = s.clock := by
  cases p <;> rfl

@[simp] theorem enqueueReplyBuffer_noticeNo (p : Port) (b : BufferId) (s : State) :
    (enqueueReplyBuffer p b s).noticeNo = s.noticeNo := by
  cases p <;> rfl

@[simp] theorem enqueueReplyBuffer_flags (p : Port) (b : BufferId) (s : State) :
    (enqueueReplyBuffer p b s).flags = s.flags := by
  cases p <;> rfl

@[simp] theorem enqueueReplyBuffer_exchanges (p : Port) (b : BufferId) (s : State) :
    (enqueueReplyBuffer p b s).exchanges = s.exchanges := by
  cases p <;> rfl

@[simp] theorem enqueueReplyBuffer_proxy (p : Port) (b : BufferId) (s : State) :
    (enqueueReplyBuffer p b s).proxy = s.proxy := by
  cases p <;> rfl

@[simp] theorem enqueueReplyBuffer_keyList (p : Port) (b : BufferId) (s : State) :
    (enqueueReplyBuffer p b s).keyList = s.keyList := by
  cases p <;> rfl

@[simp] theorem enqueueReplyBuffer_live (p : Port) (b : BufferId) (s : State) :
    (enqueueReplyBuffer p b s).live = s.live := by
  cases p <;> rfl

@[simp] theorem enqueueReplyBuffer_log (p : Port) (b : BufferId) (s : State) :
    (enqueueReplyBuffer p b s).log = s.log := by
  cases p <;> rfl

@[simp] theorem enqueueReplyBuffer_temp (p : Port) (b : BufferId) (s : State) :
    (enqueueReplyBuffer p b s).temp = s.temp := by
  cases p <;> rfl

@[simp] theorem enqueueReplyBuffer_heat (p : Port) (b : BufferId) (s : State) :
    (enqueueReplyBuffer p b s).heat = s.heat := by
  cases p <;> rfl

@[simp] theorem enqueueReplyBuffer_fan (p : Port) (b : BufferId) (s : State) :
    (enqueueReplyBuffer p b s).fan = s.fan := by
  cases p <;> rfl

@[simp] theorem enqueueReplyBuffer_keypad (p : Port) (b : BufferId) (s : State) :
    (enqueueReplyBuffer p b s).keypad = s.keypad := by
  cases p <;> rfl

@[simp] theorem enqueueReplyBuffer_keyUnit (p : Port) (b : BufferId) (s : State) :
    (enqueueReplyBuffer p b s).keyUnit = s.keyUnit := by
  cases p <;> rfl

@[simp] theorem enqueueReplyBuffer_mgmt (p : Port) (b : BufferId) (s : State) :
    (enqueueReplyBuffer p b s).mgmt = s.mgmt := by
  cases p <;> rfl

@[simp] theorem enqueueReplyBuffer_tables (p : Port) (b : BufferId) (s : State) :
    (enqueueReplyBuffer p b s).tables = s.tables := by
  cases p <;> rfl

@[simp] theorem enqueueReplyBuffer_store (p : Port) (b : BufferId) (s : State) :
    (enqueueReplyBuffer p b s).store = s.store := by
  cases p <;> rfl

@[simp] theorem enqueueReplyBuffer_counters (p : Port) (b : BufferId) (s : State) :
    (enqueueReplyBuffer p b s).counters = s.counters := by
  cases p <;> rfl

/-! ### replyTo -/

@[simp] theorem replyTo_pending (code : Nat) (c : Command) (r : Result) (data : List Byte) (s : State) :
    (replyTo code c r data s).pending = s.pending := by
  unfold replyTo; split <;> simp

@[simp] theorem replyTo_clock (code : Nat) (c : Command) (r : Result) (data : List Byte) (s : State) :
    (replyTo code c r data s).clock = s.clock := by
  unfold replyTo; split <;> simp

@[simp] theorem replyTo_flags (code : Nat) (c : Command) (r : Result) (data : List Byte) (s : State) :
    (replyTo code c r data s).flags = s.flags := by
  unfold replyTo; split <;> simp

@[simp] theorem replyTo_exchanges (code : Nat) (c : Command) (r : Result) (data : List Byte) (s : State) :
    (replyTo code c r data s).exchanges = s.exchanges := by
  unfold replyTo; split <;> simp

@[simp] theorem replyTo_proxy (code : Nat) (c : Command) (r : Result) (data : List Byte) (s : State) :
    (replyTo code c r data s).proxy = s.proxy := by
  unfold replyTo; split <;> simp

@[simp] theorem replyTo_keyList (code : Nat) (c : Command) (r : Result) (data : List Byte) (s : State) :
    (replyTo code c r data s).keyList = s.keyList := by
  unfold replyTo; split <;> simp

@[simp] theorem replyTo_live (code : Nat) (c : Command) (r : Result) (data : List Byte) (s : State) :
    (replyTo code c r data s).live = s.live := by
  unfold replyTo; split <;> simp

@[simp] theorem replyTo_log (code : Nat) (c : Command) (r : Result) (data : List Byte) (s : State) :
    (replyTo code c r data s).log = s.log := by
  unfold replyTo; split <;> simp

@[simp] theorem replyTo_temp (code : Nat) (c : Command) (r : Result) (data : List Byte) (s : State) :
    (replyTo code c r data s).temp = s.temp := by
  unfold replyTo; split <;> simp

@[simp] theorem replyTo_heat (code : Nat) (c : Command) (r : Result) (data : List Byte) (s : State) :
    (replyTo code c r data s).heat = s.heat := by
  unfold replyTo; split <;> simp

@[simp] theorem replyTo_fan (code : Nat) (c : Command) (r : Result) (data : List Byte) (s : State) :
    (replyTo code c r data s).fan = s.fan := by
  unfold replyTo; split <;> simp

@[simp] theorem replyTo_keypad (code : Nat) (c : Command) (r : Result) (data : List Byte) (s : State) :
    (replyTo code c r data s).keypad = s.keypad := by
  unfold replyTo; split <;> simp

@[simp] theorem replyTo_mgmt (code : Nat) (c : Command) (r : Result) (data : List Byte) (s : State) :
    (replyTo code c r data s).mgmt = s.mgmt := by
  unfold replyTo; split <;> simp

@[simp] theorem replyTo_tables (code : Nat) (c : Command) (r : Result) (data : List Byte) (s : State) :
    (replyTo code c r data s).tables = s.tables := by
  unfold replyTo; split <;> simp

@[simp] theorem replyTo_store (code : Nat) (c : Command) (r : Result) (data : List Byte) (s : State) :
    (replyTo code c r data s).store = s.store := by
  unfold replyTo; split <;> simp

/-! ### offerFieldKey -/

@[simp] theorem offerFieldKey_pending (code : Byte) (t : Instant) (s : State) :
    (offerFieldKey code t s).pending = s.pending := by
  unfold offerFieldKey; split <;> simp

@[simp] theorem offerFieldKey_clock (code : Byte) (t : Instant) (s : State) :
    (offerFieldKey code t s).clock = s.clock := by
  unfold offerFieldKey; split <;> simp

@[simp] theorem offerFieldKey_pool (code : Byte) (t : Instant) (s : State) :
    (offerFieldKey code t s).pool = s.pool := by
  unfold offerFieldKey; split <;> simp

@[simp] theorem offerFieldKey_hostPort (code : Byte) (t : Instant) (s : State) :
    (offerFieldKey code t s).hostPort = s.hostPort := by
  unfold offerFieldKey; split <;> simp

@[simp] theorem offerFieldKey_fieldPort (code : Byte) (t : Instant) (s : State) :
    (offerFieldKey code t s).fieldPort = s.fieldPort := by
  unfold offerFieldKey; split <;> simp

@[simp] theorem offerFieldKey_noticeNo (code : Byte) (t : Instant) (s : State) :
    (offerFieldKey code t s).noticeNo = s.noticeNo := by
  unfold offerFieldKey; split <;> simp

@[simp] theorem offerFieldKey_flags (code : Byte) (t : Instant) (s : State) :
    (offerFieldKey code t s).flags = s.flags := by
  unfold offerFieldKey; split <;> simp

@[simp] theorem offerFieldKey_exchanges (code : Byte) (t : Instant) (s : State) :
    (offerFieldKey code t s).exchanges = s.exchanges := by
  unfold offerFieldKey; split <;> simp

@[simp] theorem offerFieldKey_proxy (code : Byte) (t : Instant) (s : State) :
    (offerFieldKey code t s).proxy = s.proxy := by
  unfold offerFieldKey; split <;> simp

@[simp] theorem offerFieldKey_live (code : Byte) (t : Instant) (s : State) :
    (offerFieldKey code t s).live = s.live := by
  unfold offerFieldKey; split <;> simp

@[simp] theorem offerFieldKey_log (code : Byte) (t : Instant) (s : State) :
    (offerFieldKey code t s).log = s.log := by
  unfold offerFieldKey; split <;> simp

@[simp] theorem offerFieldKey_temp (code : Byte) (t : Instant) (s : State) :
    (offerFieldKey code t s).temp = s.temp := by
  unfold offerFieldKey; split <;> simp

@[simp] theorem offerFieldKey_heat (code : Byte) (t : Instant) (s : State) :
    (offerFieldKey code t s).heat = s.heat := by
  unfold offerFieldKey; split <;> simp

@[simp] theorem offerFieldKey_fan (code : Byte) (t : Instant) (s : State) :
    (offerFieldKey code t s).fan = s.fan := by
  unfold offerFieldKey; split <;> simp

@[simp] theorem offerFieldKey_keypad (code : Byte) (t : Instant) (s : State) :
    (offerFieldKey code t s).keypad = s.keypad := by
  unfold offerFieldKey; split <;> simp

@[simp] theorem offerFieldKey_keyUnit (code : Byte) (t : Instant) (s : State) :
    (offerFieldKey code t s).keyUnit = s.keyUnit := by
  unfold offerFieldKey; split <;> simp

@[simp] theorem offerFieldKey_mgmt (code : Byte) (t : Instant) (s : State) :
    (offerFieldKey code t s).mgmt = s.mgmt := by
  unfold offerFieldKey; split <;> simp

@[simp] theorem offerFieldKey_tables (code : Byte) (t : Instant) (s : State) :
    (offerFieldKey code t s).tables = s.tables := by
  unfold offerFieldKey; split <;> simp

@[simp] theorem offerFieldKey_store (code : Byte) (t : Instant) (s : State) :
    (offerFieldKey code t s).store = s.store := by
  unfold offerFieldKey; split <;> simp

/-! ### offerKeyEvent -/

@[simp] theorem offerKeyEvent_pending (e : KeyEvent) (s : State) : (offerKeyEvent e s).pending = s.pending := by
  unfold offerKeyEvent; split <;> simp

@[simp] theorem offerKeyEvent_clock (e : KeyEvent) (s : State) : (offerKeyEvent e s).clock = s.clock := by
  unfold offerKeyEvent; split <;> simp

@[simp] theorem offerKeyEvent_pool (e : KeyEvent) (s : State) : (offerKeyEvent e s).pool = s.pool := by
  unfold offerKeyEvent; split <;> simp

@[simp] theorem offerKeyEvent_hostPort (e : KeyEvent) (s : State) : (offerKeyEvent e s).hostPort = s.hostPort := by
  unfold offerKeyEvent; split <;> simp

@[simp] theorem offerKeyEvent_fieldPort (e : KeyEvent) (s : State) :
    (offerKeyEvent e s).fieldPort = s.fieldPort := by
  unfold offerKeyEvent; split <;> simp

@[simp] theorem offerKeyEvent_noticeNo (e : KeyEvent) (s : State) : (offerKeyEvent e s).noticeNo = s.noticeNo := by
  unfold offerKeyEvent; split <;> simp

@[simp] theorem offerKeyEvent_flags (e : KeyEvent) (s : State) : (offerKeyEvent e s).flags = s.flags := by
  unfold offerKeyEvent; split <;> simp

@[simp] theorem offerKeyEvent_exchanges (e : KeyEvent) (s : State) :
    (offerKeyEvent e s).exchanges = s.exchanges := by
  unfold offerKeyEvent; split <;> simp

@[simp] theorem offerKeyEvent_proxy (e : KeyEvent) (s : State) : (offerKeyEvent e s).proxy = s.proxy := by
  unfold offerKeyEvent; split <;> simp

@[simp] theorem offerKeyEvent_keyList (e : KeyEvent) (s : State) : (offerKeyEvent e s).keyList = s.keyList := by
  unfold offerKeyEvent; split <;> simp

@[simp] theorem offerKeyEvent_live (e : KeyEvent) (s : State) : (offerKeyEvent e s).live = s.live := by
  unfold offerKeyEvent; split <;> simp

@[simp] theorem offerKeyEvent_log (e : KeyEvent) (s : State) : (offerKeyEvent e s).log = s.log := by
  unfold offerKeyEvent; split <;> simp

@[simp] theorem offerKeyEvent_temp (e : KeyEvent) (s : State) : (offerKeyEvent e s).temp = s.temp := by
  unfold offerKeyEvent; split <;> simp

@[simp] theorem offerKeyEvent_heat (e : KeyEvent) (s : State) : (offerKeyEvent e s).heat = s.heat := by
  unfold offerKeyEvent; split <;> simp

@[simp] theorem offerKeyEvent_fan (e : KeyEvent) (s : State) : (offerKeyEvent e s).fan = s.fan := by
  unfold offerKeyEvent; split <;> simp

@[simp] theorem offerKeyEvent_keypad (e : KeyEvent) (s : State) : (offerKeyEvent e s).keypad = s.keypad := by
  unfold offerKeyEvent; split <;> simp

@[simp] theorem offerKeyEvent_mgmt (e : KeyEvent) (s : State) : (offerKeyEvent e s).mgmt = s.mgmt := by
  unfold offerKeyEvent; split <;> simp

@[simp] theorem offerKeyEvent_tables (e : KeyEvent) (s : State) : (offerKeyEvent e s).tables = s.tables := by
  unfold offerKeyEvent; split <;> simp

@[simp] theorem offerKeyEvent_store (e : KeyEvent) (s : State) : (offerKeyEvent e s).store = s.store := by
  unfold offerKeyEvent; split <;> simp

/-! ### deliver -/

@[simp] theorem deliver_pending (e : KeyEvent) (r : Bool) (t : Instant) (s : State) :
    (deliver e r t s).pending = s.pending := by
  unfold deliver; (repeat' split) <;> simp

@[simp] theorem deliver_clock (e : KeyEvent) (r : Bool) (t : Instant) (s : State) :
    (deliver e r t s).clock = s.clock := by
  unfold deliver; (repeat' split) <;> simp

@[simp] theorem deliver_pool (e : KeyEvent) (r : Bool) (t : Instant) (s : State) :
    (deliver e r t s).pool = s.pool := by
  unfold deliver; (repeat' split) <;> simp

@[simp] theorem deliver_hostPort (e : KeyEvent) (r : Bool) (t : Instant) (s : State) :
    (deliver e r t s).hostPort = s.hostPort := by
  unfold deliver; (repeat' split) <;> simp

@[simp] theorem deliver_fieldPort (e : KeyEvent) (r : Bool) (t : Instant) (s : State) :
    (deliver e r t s).fieldPort = s.fieldPort := by
  unfold deliver; (repeat' split) <;> simp

@[simp] theorem deliver_noticeNo (e : KeyEvent) (r : Bool) (t : Instant) (s : State) :
    (deliver e r t s).noticeNo = s.noticeNo := by
  unfold deliver; (repeat' split) <;> simp

@[simp] theorem deliver_flags (e : KeyEvent) (r : Bool) (t : Instant) (s : State) :
    (deliver e r t s).flags = s.flags := by
  unfold deliver; (repeat' split) <;> simp

@[simp] theorem deliver_exchanges (e : KeyEvent) (r : Bool) (t : Instant) (s : State) :
    (deliver e r t s).exchanges = s.exchanges := by
  unfold deliver; (repeat' split) <;> simp

@[simp] theorem deliver_proxy (e : KeyEvent) (r : Bool) (t : Instant) (s : State) :
    (deliver e r t s).proxy = s.proxy := by
  unfold deliver; (repeat' split) <;> simp

@[simp] theorem deliver_live (e : KeyEvent) (r : Bool) (t : Instant) (s : State) :
    (deliver e r t s).live = s.live := by
  unfold deliver; (repeat' split) <;> simp

@[simp] theorem deliver_log (e : KeyEvent) (r : Bool) (t : Instant) (s : State) :
    (deliver e r t s).log = s.log := by
  unfold deliver; (repeat' split) <;> simp

@[simp] theorem deliver_temp (e : KeyEvent) (r : Bool) (t : Instant) (s : State) :
    (deliver e r t s).temp = s.temp := by
  unfold deliver; (repeat' split) <;> simp

@[simp] theorem deliver_heat (e : KeyEvent) (r : Bool) (t : Instant) (s : State) :
    (deliver e r t s).heat = s.heat := by
  unfold deliver; (repeat' split) <;> simp

@[simp] theorem deliver_fan (e : KeyEvent) (r : Bool) (t : Instant) (s : State) :
    (deliver e r t s).fan = s.fan := by
  unfold deliver; (repeat' split) <;> simp

@[simp] theorem deliver_keypad (e : KeyEvent) (r : Bool) (t : Instant) (s : State) :
    (deliver e r t s).keypad = s.keypad := by
  unfold deliver; (repeat' split) <;> simp

@[simp] theorem deliver_mgmt (e : KeyEvent) (r : Bool) (t : Instant) (s : State) :
    (deliver e r t s).mgmt = s.mgmt := by
  unfold deliver; (repeat' split) <;> simp

@[simp] theorem deliver_tables (e : KeyEvent) (r : Bool) (t : Instant) (s : State) :
    (deliver e r t s).tables = s.tables := by
  unfold deliver; (repeat' split) <;> simp

@[simp] theorem deliver_store (e : KeyEvent) (r : Bool) (t : Instant) (s : State) :
    (deliver e r t s).store = s.store := by
  unfold deliver; (repeat' split) <;> simp

/-! ### takeOutcome -/

@[simp] theorem takeOutcome_pending (t : Instant) (o : KeyOutcome) (s : State) :
    (takeOutcome t s o).pending = s.pending := by
  cases o <;> simp only [takeOutcome, pressOutcome, releaseOutcome] <;> split <;> simp

@[simp] theorem takeOutcome_clock (t : Instant) (o : KeyOutcome) (s : State) :
    (takeOutcome t s o).clock = s.clock := by
  cases o <;> simp only [takeOutcome, pressOutcome, releaseOutcome] <;> split <;> simp

@[simp] theorem takeOutcome_pool (t : Instant) (o : KeyOutcome) (s : State) :
    (takeOutcome t s o).pool = s.pool := by
  cases o <;> simp only [takeOutcome, pressOutcome, releaseOutcome] <;> split <;> simp

@[simp] theorem takeOutcome_hostPort (t : Instant) (o : KeyOutcome) (s : State) :
    (takeOutcome t s o).hostPort = s.hostPort := by
  cases o <;> simp only [takeOutcome, pressOutcome, releaseOutcome] <;> split <;> simp

@[simp] theorem takeOutcome_fieldPort (t : Instant) (o : KeyOutcome) (s : State) :
    (takeOutcome t s o).fieldPort = s.fieldPort := by
  cases o <;> simp only [takeOutcome, pressOutcome, releaseOutcome] <;> split <;> simp

@[simp] theorem takeOutcome_noticeNo (t : Instant) (o : KeyOutcome) (s : State) :
    (takeOutcome t s o).noticeNo = s.noticeNo := by
  cases o <;> simp only [takeOutcome, pressOutcome, releaseOutcome] <;> split <;> simp

@[simp] theorem takeOutcome_flags (t : Instant) (o : KeyOutcome) (s : State) :
    (takeOutcome t s o).flags = s.flags := by
  cases o <;> simp only [takeOutcome, pressOutcome, releaseOutcome] <;> split <;> simp

@[simp] theorem takeOutcome_exchanges (t : Instant) (o : KeyOutcome) (s : State) :
    (takeOutcome t s o).exchanges = s.exchanges := by
  cases o <;> simp only [takeOutcome, pressOutcome, releaseOutcome] <;> split <;> simp

@[simp] theorem takeOutcome_proxy (t : Instant) (o : KeyOutcome) (s : State) :
    (takeOutcome t s o).proxy = s.proxy := by
  cases o <;> simp only [takeOutcome, pressOutcome, releaseOutcome] <;> split <;> simp

@[simp] theorem takeOutcome_live (t : Instant) (o : KeyOutcome) (s : State) :
    (takeOutcome t s o).live = s.live := by
  cases o <;> simp only [takeOutcome, pressOutcome, releaseOutcome] <;> split <;> simp

@[simp] theorem takeOutcome_log (t : Instant) (o : KeyOutcome) (s : State) : (takeOutcome t s o).log = s.log := by
  cases o <;> simp only [takeOutcome, pressOutcome, releaseOutcome] <;> split <;> simp

@[simp] theorem takeOutcome_temp (t : Instant) (o : KeyOutcome) (s : State) :
    (takeOutcome t s o).temp = s.temp := by
  cases o <;> simp only [takeOutcome, pressOutcome, releaseOutcome] <;> split <;> simp

@[simp] theorem takeOutcome_heat (t : Instant) (o : KeyOutcome) (s : State) :
    (takeOutcome t s o).heat = s.heat := by
  cases o <;> simp only [takeOutcome, pressOutcome, releaseOutcome] <;> split <;> simp

@[simp] theorem takeOutcome_fan (t : Instant) (o : KeyOutcome) (s : State) : (takeOutcome t s o).fan = s.fan := by
  cases o <;> simp only [takeOutcome, pressOutcome, releaseOutcome] <;> split <;> simp

@[simp] theorem takeOutcome_keypad (t : Instant) (o : KeyOutcome) (s : State) :
    (takeOutcome t s o).keypad = s.keypad := by
  cases o <;> simp only [takeOutcome, pressOutcome, releaseOutcome] <;> split <;> simp

@[simp] theorem takeOutcome_mgmt (t : Instant) (o : KeyOutcome) (s : State) :
    (takeOutcome t s o).mgmt = s.mgmt := by
  cases o <;> simp only [takeOutcome, pressOutcome, releaseOutcome] <;> split <;> simp

@[simp] theorem takeOutcome_tables (t : Instant) (o : KeyOutcome) (s : State) :
    (takeOutcome t s o).tables = s.tables := by
  cases o <;> simp only [takeOutcome, pressOutcome, releaseOutcome] <;> split <;> simp

@[simp] theorem takeOutcome_store (t : Instant) (o : KeyOutcome) (s : State) :
    (takeOutcome t s o).store = s.store := by
  cases o <;> simp only [takeOutcome, pressOutcome, releaseOutcome] <;> split <;> simp

/-! ### discardItem -/

@[simp] theorem discardItem_pending (i : FieldItem) (s : State) : (discardItem s i).pending = s.pending := by
  cases i <;> simp [discardItem]

@[simp] theorem discardItem_clock (i : FieldItem) (s : State) : (discardItem s i).clock = s.clock := by
  cases i <;> simp [discardItem]

@[simp] theorem discardItem_pool (i : FieldItem) (s : State) : (discardItem s i).pool = s.pool := by
  cases i <;> simp [discardItem]

@[simp] theorem discardItem_hostPort (i : FieldItem) (s : State) : (discardItem s i).hostPort = s.hostPort := by
  cases i <;> simp [discardItem]

@[simp] theorem discardItem_fieldPort (i : FieldItem) (s : State) : (discardItem s i).fieldPort = s.fieldPort := by
  cases i <;> simp [discardItem]

@[simp] theorem discardItem_noticeNo (i : FieldItem) (s : State) : (discardItem s i).noticeNo = s.noticeNo := by
  cases i <;> simp [discardItem]

@[simp] theorem discardItem_flags (i : FieldItem) (s : State) : (discardItem s i).flags = s.flags := by
  cases i <;> simp [discardItem]

@[simp] theorem discardItem_exchanges (i : FieldItem) (s : State) : (discardItem s i).exchanges = s.exchanges := by
  cases i <;> simp [discardItem]

@[simp] theorem discardItem_live (i : FieldItem) (s : State) : (discardItem s i).live = s.live := by
  cases i <;> simp [discardItem]

@[simp] theorem discardItem_log (i : FieldItem) (s : State) : (discardItem s i).log = s.log := by
  cases i <;> simp [discardItem]

@[simp] theorem discardItem_temp (i : FieldItem) (s : State) : (discardItem s i).temp = s.temp := by
  cases i <;> simp [discardItem]

@[simp] theorem discardItem_heat (i : FieldItem) (s : State) : (discardItem s i).heat = s.heat := by
  cases i <;> simp [discardItem]

@[simp] theorem discardItem_fan (i : FieldItem) (s : State) : (discardItem s i).fan = s.fan := by
  cases i <;> simp [discardItem]

@[simp] theorem discardItem_keypad (i : FieldItem) (s : State) : (discardItem s i).keypad = s.keypad := by
  cases i <;> simp [discardItem]

@[simp] theorem discardItem_keyUnit (i : FieldItem) (s : State) : (discardItem s i).keyUnit = s.keyUnit := by
  cases i <;> simp [discardItem]

@[simp] theorem discardItem_mgmt (i : FieldItem) (s : State) : (discardItem s i).mgmt = s.mgmt := by
  cases i <;> simp [discardItem]

@[simp] theorem discardItem_tables (i : FieldItem) (s : State) : (discardItem s i).tables = s.tables := by
  cases i <;> simp [discardItem]

@[simp] theorem discardItem_store (i : FieldItem) (s : State) : (discardItem s i).store = s.store := by
  cases i <;> simp [discardItem]

@[simp] theorem discardItem_counters (i : FieldItem) (s : State) : (discardItem s i).counters = s.counters := by
  cases i <;> simp [discardItem]

/-! ### resetPorts -/

@[simp] theorem resetPorts_pending (set : SettingsTable) (s : State) : (resetPorts set s).pending = s.pending := by
  simp only [resetPorts]
  exact foldl_keeps (fun s => s.pending) _ (fun s i => by simp) _ s

@[simp] theorem resetPorts_clock (set : SettingsTable) (s : State) : (resetPorts set s).clock = s.clock := by
  simp only [resetPorts]
  exact foldl_keeps (fun s => s.clock) _ (fun s i => by simp) _ s

@[simp] theorem resetPorts_noticeNo (set : SettingsTable) (s : State) :
    (resetPorts set s).noticeNo = s.noticeNo := by
  simp only [resetPorts]
  exact foldl_keeps (fun s => s.noticeNo) _ (fun s i => by simp) _ s

@[simp] theorem resetPorts_flags (set : SettingsTable) (s : State) : (resetPorts set s).flags = s.flags := by
  simp only [resetPorts]
  exact foldl_keeps (fun s => s.flags) _ (fun s i => by simp) _ s

@[simp] theorem resetPorts_exchanges (set : SettingsTable) (s : State) :
    (resetPorts set s).exchanges = s.exchanges := by
  simp only [resetPorts]
  exact foldl_keeps (fun s => s.exchanges) _ (fun s i => by simp) _ s

@[simp] theorem resetPorts_live (set : SettingsTable) (s : State) : (resetPorts set s).live = s.live := by
  simp only [resetPorts]
  exact foldl_keeps (fun s => s.live) _ (fun s i => by simp) _ s

@[simp] theorem resetPorts_log (set : SettingsTable) (s : State) : (resetPorts set s).log = s.log := by
  simp only [resetPorts]
  exact foldl_keeps (fun s => s.log) _ (fun s i => by simp) _ s

@[simp] theorem resetPorts_temp (set : SettingsTable) (s : State) : (resetPorts set s).temp = s.temp := by
  simp only [resetPorts]
  exact foldl_keeps (fun s => s.temp) _ (fun s i => by simp) _ s

@[simp] theorem resetPorts_heat (set : SettingsTable) (s : State) : (resetPorts set s).heat = s.heat := by
  simp only [resetPorts]
  exact foldl_keeps (fun s => s.heat) _ (fun s i => by simp) _ s

@[simp] theorem resetPorts_fan (set : SettingsTable) (s : State) : (resetPorts set s).fan = s.fan := by
  simp only [resetPorts]
  exact foldl_keeps (fun s => s.fan) _ (fun s i => by simp) _ s

@[simp] theorem resetPorts_keypad (set : SettingsTable) (s : State) : (resetPorts set s).keypad = s.keypad := by
  simp only [resetPorts]
  exact foldl_keeps (fun s => s.keypad) _ (fun s i => by simp) _ s

@[simp] theorem resetPorts_keyUnit (set : SettingsTable) (s : State) : (resetPorts set s).keyUnit = s.keyUnit := by
  simp only [resetPorts]
  exact foldl_keeps (fun s => s.keyUnit) _ (fun s i => by simp) _ s

@[simp] theorem resetPorts_mgmt (set : SettingsTable) (s : State) : (resetPorts set s).mgmt = s.mgmt := by
  simp only [resetPorts]
  exact foldl_keeps (fun s => s.mgmt) _ (fun s i => by simp) _ s

@[simp] theorem resetPorts_tables (set : SettingsTable) (s : State) : (resetPorts set s).tables = s.tables := by
  simp only [resetPorts]
  exact foldl_keeps (fun s => s.tables) _ (fun s i => by simp) _ s

@[simp] theorem resetPorts_store (set : SettingsTable) (s : State) : (resetPorts set s).store = s.store := by
  simp only [resetPorts]
  exact foldl_keeps (fun s => s.store) _ (fun s i => by simp) _ s

@[simp] theorem resetPorts_counters (set : SettingsTable) (s : State) :
    (resetPorts set s).counters = s.counters := by
  simp only [resetPorts]
  exact foldl_keeps (fun s => s.counters) _ (fun s i => by simp) _ s

/-! ### resetKeys -/

@[simp] theorem resetKeys_pending (s : State) : (resetKeys s).pending = s.pending := by simp [resetKeys]

@[simp] theorem resetKeys_clock (s : State) : (resetKeys s).clock = s.clock := by simp [resetKeys]

@[simp] theorem resetKeys_pool (s : State) : (resetKeys s).pool = s.pool := by simp [resetKeys]

@[simp] theorem resetKeys_hostPort (s : State) : (resetKeys s).hostPort = s.hostPort := by simp [resetKeys]

@[simp] theorem resetKeys_fieldPort (s : State) : (resetKeys s).fieldPort = s.fieldPort := by simp [resetKeys]

@[simp] theorem resetKeys_noticeNo (s : State) : (resetKeys s).noticeNo = s.noticeNo := by simp [resetKeys]

@[simp] theorem resetKeys_flags (s : State) : (resetKeys s).flags = s.flags := by simp [resetKeys]

@[simp] theorem resetKeys_exchanges (s : State) : (resetKeys s).exchanges = s.exchanges := by simp [resetKeys]

@[simp] theorem resetKeys_proxy (s : State) : (resetKeys s).proxy = s.proxy := by simp [resetKeys]

@[simp] theorem resetKeys_keyList (s : State) : (resetKeys s).keyList = s.keyList := by simp [resetKeys]

@[simp] theorem resetKeys_live (s : State) : (resetKeys s).live = s.live := by simp [resetKeys]

@[simp] theorem resetKeys_log (s : State) : (resetKeys s).log = s.log := by simp [resetKeys]

@[simp] theorem resetKeys_temp (s : State) : (resetKeys s).temp = s.temp := by simp [resetKeys]

@[simp] theorem resetKeys_heat (s : State) : (resetKeys s).heat = s.heat := by simp [resetKeys]

@[simp] theorem resetKeys_fan (s : State) : (resetKeys s).fan = s.fan := by simp [resetKeys]

@[simp] theorem resetKeys_mgmt (s : State) : (resetKeys s).mgmt = s.mgmt := by simp [resetKeys]

@[simp] theorem resetKeys_tables (s : State) : (resetKeys s).tables = s.tables := by simp [resetKeys]

@[simp] theorem resetKeys_store (s : State) : (resetKeys s).store = s.store := by simp [resetKeys]

end Sys2Proof.Machine
end

