-- ==== Sys2Proof/Laws/Blocks.lean ====
section
/-! SUPPORT. What each block's larger acts leave alone, field by field: an act's fields that can change are the ones
without a lemma. -/

namespace Sys2Proof.Machine

/-! ### exchangeFull -/

@[simp] theorem exchangeFull_pending (f : RoutedFrame) (s : State) : (exchangeFull f s).pending = s.pending := by
  simp [exchangeFull]

@[simp] theorem exchangeFull_clock (f : RoutedFrame) (s : State) : (exchangeFull f s).clock = s.clock := by
  simp [exchangeFull]

@[simp] theorem exchangeFull_flags (f : RoutedFrame) (s : State) : (exchangeFull f s).flags = s.flags := by
  simp [exchangeFull]

@[simp] theorem exchangeFull_live (f : RoutedFrame) (s : State) : (exchangeFull f s).live = s.live := by
  simp [exchangeFull]

@[simp] theorem exchangeFull_log (f : RoutedFrame) (s : State) : (exchangeFull f s).log = s.log := by
  simp [exchangeFull]

@[simp] theorem exchangeFull_temp (f : RoutedFrame) (s : State) : (exchangeFull f s).temp = s.temp := by
  simp [exchangeFull]

@[simp] theorem exchangeFull_heat (f : RoutedFrame) (s : State) : (exchangeFull f s).heat = s.heat := by
  simp [exchangeFull]

@[simp] theorem exchangeFull_fan (f : RoutedFrame) (s : State) : (exchangeFull f s).fan = s.fan := by
  simp [exchangeFull]

@[simp] theorem exchangeFull_keypad (f : RoutedFrame) (s : State) : (exchangeFull f s).keypad = s.keypad := by
  simp [exchangeFull]

@[simp] theorem exchangeFull_mgmt (f : RoutedFrame) (s : State) : (exchangeFull f s).mgmt = s.mgmt := by
  simp [exchangeFull]

@[simp] theorem exchangeFull_tables (f : RoutedFrame) (s : State) : (exchangeFull f s).tables = s.tables := by
  simp [exchangeFull]

@[simp] theorem exchangeFull_store (f : RoutedFrame) (s : State) : (exchangeFull f s).store = s.store := by
  simp [exchangeFull]

/-! ### forwardRequest -/

@[simp] theorem forwardRequest_pending (f : RoutedFrame) (s : State) :
    (forwardRequest f s).pending = s.pending := by
  unfold forwardRequest; (repeat' split) <;> simp

@[simp] theorem forwardRequest_clock (f : RoutedFrame) (s : State) : (forwardRequest f s).clock = s.clock := by
  unfold forwardRequest; (repeat' split) <;> simp

@[simp] theorem forwardRequest_flags (f : RoutedFrame) (s : State) : (forwardRequest f s).flags = s.flags := by
  unfold forwardRequest; (repeat' split) <;> simp

@[simp] theorem forwardRequest_live (f : RoutedFrame) (s : State) : (forwardRequest f s).live = s.live := by
  unfold forwardRequest; (repeat' split) <;> simp

@[simp] theorem forwardRequest_log (f : RoutedFrame) (s : State) : (forwardRequest f s).log = s.log := by
  unfold forwardRequest; (repeat' split) <;> simp

@[simp] theorem forwardRequest_temp (f : RoutedFrame) (s : State) : (forwardRequest f s).temp = s.temp := by
  unfold forwardRequest; (repeat' split) <;> simp

@[simp] theorem forwardRequest_heat (f : RoutedFrame) (s : State) : (forwardRequest f s).heat = s.heat := by
  unfold forwardRequest; (repeat' split) <;> simp

@[simp] theorem forwardRequest_fan (f : RoutedFrame) (s : State) : (forwardRequest f s).fan = s.fan := by
  unfold forwardRequest; (repeat' split) <;> simp

@[simp] theorem forwardRequest_keypad (f : RoutedFrame) (s : State) : (forwardRequest f s).keypad = s.keypad := by
  unfold forwardRequest; (repeat' split) <;> simp

@[simp] theorem forwardRequest_mgmt (f : RoutedFrame) (s : State) : (forwardRequest f s).mgmt = s.mgmt := by
  unfold forwardRequest; (repeat' split) <;> simp

@[simp] theorem forwardRequest_tables (f : RoutedFrame) (s : State) : (forwardRequest f s).tables = s.tables := by
  unfold forwardRequest; (repeat' split) <;> simp

@[simp] theorem forwardRequest_store (f : RoutedFrame) (s : State) : (forwardRequest f s).store = s.store := by
  unfold forwardRequest; (repeat' split) <;> simp

/-! ### forwardBroadcast -/

@[simp] theorem forwardBroadcast_pending (f : RoutedFrame) (s : State) :
    (forwardBroadcast f s).pending = s.pending := by
  unfold forwardBroadcast; split <;> simp

@[simp] theorem forwardBroadcast_clock (f : RoutedFrame) (s : State) : (forwardBroadcast f s).clock = s.clock := by
  unfold forwardBroadcast; split <;> simp

@[simp] theorem forwardBroadcast_fieldPort (f : RoutedFrame) (s : State) :
    (forwardBroadcast f s).fieldPort = s.fieldPort := by
  unfold forwardBroadcast; split <;> simp

@[simp] theorem forwardBroadcast_flags (f : RoutedFrame) (s : State) : (forwardBroadcast f s).flags = s.flags := by
  unfold forwardBroadcast; split <;> simp

@[simp] theorem forwardBroadcast_exchanges (f : RoutedFrame) (s : State) :
    (forwardBroadcast f s).exchanges = s.exchanges := by
  unfold forwardBroadcast; split <;> simp

@[simp] theorem forwardBroadcast_proxy (f : RoutedFrame) (s : State) : (forwardBroadcast f s).proxy = s.proxy := by
  unfold forwardBroadcast; split <;> simp

@[simp] theorem forwardBroadcast_keyList (f : RoutedFrame) (s : State) :
    (forwardBroadcast f s).keyList = s.keyList := by
  unfold forwardBroadcast; split <;> simp

@[simp] theorem forwardBroadcast_live (f : RoutedFrame) (s : State) : (forwardBroadcast f s).live = s.live := by
  unfold forwardBroadcast; split <;> simp

@[simp] theorem forwardBroadcast_log (f : RoutedFrame) (s : State) : (forwardBroadcast f s).log = s.log := by
  unfold forwardBroadcast; split <;> simp

@[simp] theorem forwardBroadcast_temp (f : RoutedFrame) (s : State) : (forwardBroadcast f s).temp = s.temp := by
  unfold forwardBroadcast; split <;> simp

@[simp] theorem forwardBroadcast_heat (f : RoutedFrame) (s : State) : (forwardBroadcast f s).heat = s.heat := by
  unfold forwardBroadcast; split <;> simp

@[simp] theorem forwardBroadcast_fan (f : RoutedFrame) (s : State) : (forwardBroadcast f s).fan = s.fan := by
  unfold forwardBroadcast; split <;> simp

@[simp] theorem forwardBroadcast_keypad (f : RoutedFrame) (s : State) :
    (forwardBroadcast f s).keypad = s.keypad := by
  unfold forwardBroadcast; split <;> simp

@[simp] theorem forwardBroadcast_mgmt (f : RoutedFrame) (s : State) : (forwardBroadcast f s).mgmt = s.mgmt := by
  unfold forwardBroadcast; split <;> simp

@[simp] theorem forwardBroadcast_tables (f : RoutedFrame) (s : State) :
    (forwardBroadcast f s).tables = s.tables := by
  unfold forwardBroadcast; split <;> simp

@[simp] theorem forwardBroadcast_store (f : RoutedFrame) (s : State) : (forwardBroadcast f s).store = s.store := by
  unfold forwardBroadcast; split <;> simp

/-! ### forwardReply -/

@[simp] theorem forwardReply_pending (f : RoutedFrame) (s : State) : (forwardReply f s).pending = s.pending := by
  unfold forwardReply; split <;> simp

@[simp] theorem forwardReply_clock (f : RoutedFrame) (s : State) : (forwardReply f s).clock = s.clock := by
  unfold forwardReply; split <;> simp

@[simp] theorem forwardReply_flags (f : RoutedFrame) (s : State) : (forwardReply f s).flags = s.flags := by
  unfold forwardReply; split <;> simp

@[simp] theorem forwardReply_exchanges (f : RoutedFrame) (s : State) :
    (forwardReply f s).exchanges = s.exchanges := by
  unfold forwardReply; split <;> simp

@[simp] theorem forwardReply_proxy (f : RoutedFrame) (s : State) : (forwardReply f s).proxy = s.proxy := by
  unfold forwardReply; split <;> simp

@[simp] theorem forwardReply_keyList (f : RoutedFrame) (s : State) : (forwardReply f s).keyList = s.keyList := by
  unfold forwardReply; split <;> simp

@[simp] theorem forwardReply_live (f : RoutedFrame) (s : State) : (forwardReply f s).live = s.live := by
  unfold forwardReply; split <;> simp

@[simp] theorem forwardReply_log (f : RoutedFrame) (s : State) : (forwardReply f s).log = s.log := by
  unfold forwardReply; split <;> simp

@[simp] theorem forwardReply_temp (f : RoutedFrame) (s : State) : (forwardReply f s).temp = s.temp := by
  unfold forwardReply; split <;> simp

@[simp] theorem forwardReply_heat (f : RoutedFrame) (s : State) : (forwardReply f s).heat = s.heat := by
  unfold forwardReply; split <;> simp

@[simp] theorem forwardReply_fan (f : RoutedFrame) (s : State) : (forwardReply f s).fan = s.fan := by
  unfold forwardReply; split <;> simp

@[simp] theorem forwardReply_keypad (f : RoutedFrame) (s : State) : (forwardReply f s).keypad = s.keypad := by
  unfold forwardReply; split <;> simp

@[simp] theorem forwardReply_mgmt (f : RoutedFrame) (s : State) : (forwardReply f s).mgmt = s.mgmt := by
  unfold forwardReply; split <;> simp

@[simp] theorem forwardReply_tables (f : RoutedFrame) (s : State) : (forwardReply f s).tables = s.tables := by
  unfold forwardReply; split <;> simp

@[simp] theorem forwardReply_store (f : RoutedFrame) (s : State) : (forwardReply f s).store = s.store := by
  unfold forwardReply; split <;> simp

/-! ### dropUnforwardable -/

@[simp] theorem dropUnforwardable_pending (f : RoutedFrame) (s : State) :
    (dropUnforwardable f s).pending = s.pending := by
  simp [dropUnforwardable]

@[simp] theorem dropUnforwardable_clock (f : RoutedFrame) (s : State) :
    (dropUnforwardable f s).clock = s.clock := by
  simp [dropUnforwardable]

@[simp] theorem dropUnforwardable_fieldPort (f : RoutedFrame) (s : State) :
    (dropUnforwardable f s).fieldPort = s.fieldPort := by
  simp [dropUnforwardable]

@[simp] theorem dropUnforwardable_flags (f : RoutedFrame) (s : State) :
    (dropUnforwardable f s).flags = s.flags := by
  simp [dropUnforwardable]

@[simp] theorem dropUnforwardable_exchanges (f : RoutedFrame) (s : State) :
    (dropUnforwardable f s).exchanges = s.exchanges := by
  simp [dropUnforwardable]

@[simp] theorem dropUnforwardable_proxy (f : RoutedFrame) (s : State) :
    (dropUnforwardable f s).proxy = s.proxy := by
  simp [dropUnforwardable]

@[simp] theorem dropUnforwardable_keyList (f : RoutedFrame) (s : State) :
    (dropUnforwardable f s).keyList = s.keyList := by
  simp [dropUnforwardable]

@[simp] theorem dropUnforwardable_live (f : RoutedFrame) (s : State) : (dropUnforwardable f s).live = s.live := by
  simp [dropUnforwardable]

@[simp] theorem dropUnforwardable_log (f : RoutedFrame) (s : State) : (dropUnforwardable f s).log = s.log := by
  simp [dropUnforwardable]

@[simp] theorem dropUnforwardable_temp (f : RoutedFrame) (s : State) : (dropUnforwardable f s).temp = s.temp := by
  simp [dropUnforwardable]

@[simp] theorem dropUnforwardable_heat (f : RoutedFrame) (s : State) : (dropUnforwardable f s).heat = s.heat := by
  simp [dropUnforwardable]

@[simp] theorem dropUnforwardable_fan (f : RoutedFrame) (s : State) : (dropUnforwardable f s).fan = s.fan := by
  simp [dropUnforwardable]

@[simp] theorem dropUnforwardable_keypad (f : RoutedFrame) (s : State) :
    (dropUnforwardable f s).keypad = s.keypad := by
  simp [dropUnforwardable]

@[simp] theorem dropUnforwardable_mgmt (f : RoutedFrame) (s : State) : (dropUnforwardable f s).mgmt = s.mgmt := by
  simp [dropUnforwardable]

@[simp] theorem dropUnforwardable_tables (f : RoutedFrame) (s : State) :
    (dropUnforwardable f s).tables = s.tables := by
  simp [dropUnforwardable]

@[simp] theorem dropUnforwardable_store (f : RoutedFrame) (s : State) :
    (dropUnforwardable f s).store = s.store := by
  simp [dropUnforwardable]

/-! ### routeDrop -/

@[simp] theorem routeDrop_pending (f : RoutedFrame) (s : State) : (routeDrop f s).pending = s.pending := by
  simp [routeDrop]

@[simp] theorem routeDrop_clock (f : RoutedFrame) (s : State) : (routeDrop f s).clock = s.clock := by simp [routeDrop]

@[simp] theorem routeDrop_fieldPort (f : RoutedFrame) (s : State) : (routeDrop f s).fieldPort = s.fieldPort := by
  simp [routeDrop]

@[simp] theorem routeDrop_flags (f : RoutedFrame) (s : State) : (routeDrop f s).flags = s.flags := by simp [routeDrop]

@[simp] theorem routeDrop_exchanges (f : RoutedFrame) (s : State) : (routeDrop f s).exchanges = s.exchanges := by
  simp [routeDrop]

@[simp] theorem routeDrop_proxy (f : RoutedFrame) (s : State) : (routeDrop f s).proxy = s.proxy := by simp [routeDrop]

@[simp] theorem routeDrop_keyList (f : RoutedFrame) (s : State) : (routeDrop f s).keyList = s.keyList := by
  simp [routeDrop]

@[simp] theorem routeDrop_live (f : RoutedFrame) (s : State) : (routeDrop f s).live = s.live := by simp [routeDrop]

@[simp] theorem routeDrop_log (f : RoutedFrame) (s : State) : (routeDrop f s).log = s.log := by simp [routeDrop]

@[simp] theorem routeDrop_temp (f : RoutedFrame) (s : State) : (routeDrop f s).temp = s.temp := by simp [routeDrop]

@[simp] theorem routeDrop_heat (f : RoutedFrame) (s : State) : (routeDrop f s).heat = s.heat := by simp [routeDrop]

@[simp] theorem routeDrop_fan (f : RoutedFrame) (s : State) : (routeDrop f s).fan = s.fan := by simp [routeDrop]

@[simp] theorem routeDrop_keypad (f : RoutedFrame) (s : State) : (routeDrop f s).keypad = s.keypad := by
  simp [routeDrop]

@[simp] theorem routeDrop_mgmt (f : RoutedFrame) (s : State) : (routeDrop f s).mgmt = s.mgmt := by simp [routeDrop]

@[simp] theorem routeDrop_tables (f : RoutedFrame) (s : State) : (routeDrop f s).tables = s.tables := by
  simp [routeDrop]

@[simp] theorem routeDrop_store (f : RoutedFrame) (s : State) : (routeDrop f s).store = s.store := by simp [routeDrop]

/-! ### defaultDrop -/

@[simp] theorem defaultDrop_pending (f : RoutedFrame) (s : State) : (defaultDrop f s).pending = s.pending := by
  simp [defaultDrop]

@[simp] theorem defaultDrop_clock (f : RoutedFrame) (s : State) : (defaultDrop f s).clock = s.clock := by
  simp [defaultDrop]

@[simp] theorem defaultDrop_fieldPort (f : RoutedFrame) (s : State) :
    (defaultDrop f s).fieldPort = s.fieldPort := by
  simp [defaultDrop]

@[simp] theorem defaultDrop_flags (f : RoutedFrame) (s : State) : (defaultDrop f s).flags = s.flags := by
  simp [defaultDrop]

@[simp] theorem defaultDrop_exchanges (f : RoutedFrame) (s : State) :
    (defaultDrop f s).exchanges = s.exchanges := by
  simp [defaultDrop]

@[simp] theorem defaultDrop_proxy (f : RoutedFrame) (s : State) : (defaultDrop f s).proxy = s.proxy := by
  simp [defaultDrop]

@[simp] theorem defaultDrop_keyList (f : RoutedFrame) (s : State) : (defaultDrop f s).keyList = s.keyList := by
  simp [defaultDrop]

@[simp] theorem defaultDrop_live (f : RoutedFrame) (s : State) : (defaultDrop f s).live = s.live := by
  simp [defaultDrop]

@[simp] theorem defaultDrop_log (f : RoutedFrame) (s : State) : (defaultDrop f s).log = s.log := by simp [defaultDrop]

@[simp] theorem defaultDrop_temp (f : RoutedFrame) (s : State) : (defaultDrop f s).temp = s.temp := by
  simp [defaultDrop]

@[simp] theorem defaultDrop_heat (f : RoutedFrame) (s : State) : (defaultDrop f s).heat = s.heat := by
  simp [defaultDrop]

@[simp] theorem defaultDrop_fan (f : RoutedFrame) (s : State) : (defaultDrop f s).fan = s.fan := by simp [defaultDrop]

@[simp] theorem defaultDrop_keypad (f : RoutedFrame) (s : State) : (defaultDrop f s).keypad = s.keypad := by
  simp [defaultDrop]

@[simp] theorem defaultDrop_mgmt (f : RoutedFrame) (s : State) : (defaultDrop f s).mgmt = s.mgmt := by
  simp [defaultDrop]

@[simp] theorem defaultDrop_tables (f : RoutedFrame) (s : State) : (defaultDrop f s).tables = s.tables := by
  simp [defaultDrop]

@[simp] theorem defaultDrop_store (f : RoutedFrame) (s : State) : (defaultDrop f s).store = s.store := by
  simp [defaultDrop]

/-! ### routeAnswer -/

@[simp] theorem routeAnswer_pending (f : RoutedFrame) (s : State) : (routeAnswer f s).pending = s.pending := by
  unfold routeAnswer; split <;> simp

@[simp] theorem routeAnswer_clock (f : RoutedFrame) (s : State) : (routeAnswer f s).clock = s.clock := by
  unfold routeAnswer; split <;> simp

@[simp] theorem routeAnswer_flags (f : RoutedFrame) (s : State) : (routeAnswer f s).flags = s.flags := by
  unfold routeAnswer; split <;> simp

@[simp] theorem routeAnswer_live (f : RoutedFrame) (s : State) : (routeAnswer f s).live = s.live := by
  unfold routeAnswer; split <;> simp

@[simp] theorem routeAnswer_log (f : RoutedFrame) (s : State) : (routeAnswer f s).log = s.log := by
  unfold routeAnswer; split <;> simp

@[simp] theorem routeAnswer_temp (f : RoutedFrame) (s : State) : (routeAnswer f s).temp = s.temp := by
  unfold routeAnswer; split <;> simp

@[simp] theorem routeAnswer_heat (f : RoutedFrame) (s : State) : (routeAnswer f s).heat = s.heat := by
  unfold routeAnswer; split <;> simp

@[simp] theorem routeAnswer_fan (f : RoutedFrame) (s : State) : (routeAnswer f s).fan = s.fan := by
  unfold routeAnswer; split <;> simp

@[simp] theorem routeAnswer_keypad (f : RoutedFrame) (s : State) : (routeAnswer f s).keypad = s.keypad := by
  unfold routeAnswer; split <;> simp

@[simp] theorem routeAnswer_mgmt (f : RoutedFrame) (s : State) : (routeAnswer f s).mgmt = s.mgmt := by
  unfold routeAnswer; split <;> simp

@[simp] theorem routeAnswer_tables (f : RoutedFrame) (s : State) : (routeAnswer f s).tables = s.tables := by
  unfold routeAnswer; split <;> simp

@[simp] theorem routeAnswer_store (f : RoutedFrame) (s : State) : (routeAnswer f s).store = s.store := by
  unfold routeAnswer; split <;> simp

/-! ### routeForward -/

@[simp] theorem routeForward_pending (f : RoutedFrame) (s : State) : (routeForward f s).pending = s.pending := by
  unfold routeForward; (repeat' split) <;> simp

@[simp] theorem routeForward_clock (f : RoutedFrame) (s : State) : (routeForward f s).clock = s.clock := by
  unfold routeForward; (repeat' split) <;> simp

@[simp] theorem routeForward_flags (f : RoutedFrame) (s : State) : (routeForward f s).flags = s.flags := by
  unfold routeForward; (repeat' split) <;> simp

@[simp] theorem routeForward_live (f : RoutedFrame) (s : State) : (routeForward f s).live = s.live := by
  unfold routeForward; (repeat' split) <;> simp

@[simp] theorem routeForward_log (f : RoutedFrame) (s : State) : (routeForward f s).log = s.log := by
  unfold routeForward; (repeat' split) <;> simp

@[simp] theorem routeForward_temp (f : RoutedFrame) (s : State) : (routeForward f s).temp = s.temp := by
  unfold routeForward; (repeat' split) <;> simp

@[simp] theorem routeForward_heat (f : RoutedFrame) (s : State) : (routeForward f s).heat = s.heat := by
  unfold routeForward; (repeat' split) <;> simp

@[simp] theorem routeForward_fan (f : RoutedFrame) (s : State) : (routeForward f s).fan = s.fan := by
  unfold routeForward; (repeat' split) <;> simp

@[simp] theorem routeForward_keypad (f : RoutedFrame) (s : State) : (routeForward f s).keypad = s.keypad := by
  unfold routeForward; (repeat' split) <;> simp

@[simp] theorem routeForward_mgmt (f : RoutedFrame) (s : State) : (routeForward f s).mgmt = s.mgmt := by
  unfold routeForward; (repeat' split) <;> simp

@[simp] theorem routeForward_tables (f : RoutedFrame) (s : State) : (routeForward f s).tables = s.tables := by
  unfold routeForward; (repeat' split) <;> simp

@[simp] theorem routeForward_store (f : RoutedFrame) (s : State) : (routeForward f s).store = s.store := by
  unfold routeForward; (repeat' split) <;> simp

/-! ### routeAction -/

@[simp] theorem routeAction_pending (e : RouteEntry) (f : RoutedFrame) (s : State) :
    (routeAction e f s).pending = s.pending := by
  unfold routeAction; split <;> simp

@[simp] theorem routeAction_clock (e : RouteEntry) (f : RoutedFrame) (s : State) :
    (routeAction e f s).clock = s.clock := by
  unfold routeAction; split <;> simp

@[simp] theorem routeAction_flags (e : RouteEntry) (f : RoutedFrame) (s : State) :
    (routeAction e f s).flags = s.flags := by
  unfold routeAction; split <;> simp

@[simp] theorem routeAction_live (e : RouteEntry) (f : RoutedFrame) (s : State) :
    (routeAction e f s).live = s.live := by
  unfold routeAction; split <;> simp

@[simp] theorem routeAction_log (e : RouteEntry) (f : RoutedFrame) (s : State) :
    (routeAction e f s).log = s.log := by
  unfold routeAction; split <;> simp

@[simp] theorem routeAction_temp (e : RouteEntry) (f : RoutedFrame) (s : State) :
    (routeAction e f s).temp = s.temp := by
  unfold routeAction; split <;> simp

@[simp] theorem routeAction_heat (e : RouteEntry) (f : RoutedFrame) (s : State) :
    (routeAction e f s).heat = s.heat := by
  unfold routeAction; split <;> simp

@[simp] theorem routeAction_fan (e : RouteEntry) (f : RoutedFrame) (s : State) :
    (routeAction e f s).fan = s.fan := by
  unfold routeAction; split <;> simp

@[simp] theorem routeAction_keypad (e : RouteEntry) (f : RoutedFrame) (s : State) :
    (routeAction e f s).keypad = s.keypad := by
  unfold routeAction; split <;> simp

@[simp] theorem routeAction_mgmt (e : RouteEntry) (f : RoutedFrame) (s : State) :
    (routeAction e f s).mgmt = s.mgmt := by
  unfold routeAction; split <;> simp

@[simp] theorem routeAction_tables (e : RouteEntry) (f : RoutedFrame) (s : State) :
    (routeAction e f s).tables = s.tables := by
  unfold routeAction; split <;> simp

@[simp] theorem routeAction_store (e : RouteEntry) (f : RoutedFrame) (s : State) :
    (routeAction e f s).store = s.store := by
  unfold routeAction; split <;> simp

/-! ### routeCapture -/

@[simp] theorem routeCapture_pending (e : RouteEntry) (f : RoutedFrame) (s : State) :
    (routeCapture e f s).pending = s.pending := by
  unfold routeCapture; split <;> simp

@[simp] theorem routeCapture_clock (e : RouteEntry) (f : RoutedFrame) (s : State) :
    (routeCapture e f s).clock = s.clock := by
  unfold routeCapture; split <;> simp

@[simp] theorem routeCapture_pool (e : RouteEntry) (f : RoutedFrame) (s : State) :
    (routeCapture e f s).pool = s.pool := by
  unfold routeCapture; split <;> simp

@[simp] theorem routeCapture_hostPort (e : RouteEntry) (f : RoutedFrame) (s : State) :
    (routeCapture e f s).hostPort = s.hostPort := by
  unfold routeCapture; split <;> simp

@[simp] theorem routeCapture_fieldPort (e : RouteEntry) (f : RoutedFrame) (s : State) :
    (routeCapture e f s).fieldPort = s.fieldPort := by
  unfold routeCapture; split <;> simp

@[simp] theorem routeCapture_noticeNo (e : RouteEntry) (f : RoutedFrame) (s : State) :
    (routeCapture e f s).noticeNo = s.noticeNo := by
  unfold routeCapture; split <;> simp

@[simp] theorem routeCapture_flags (e : RouteEntry) (f : RoutedFrame) (s : State) :
    (routeCapture e f s).flags = s.flags := by
  unfold routeCapture; split <;> simp

@[simp] theorem routeCapture_exchanges (e : RouteEntry) (f : RoutedFrame) (s : State) :
    (routeCapture e f s).exchanges = s.exchanges := by
  unfold routeCapture; split <;> simp

@[simp] theorem routeCapture_keyList (e : RouteEntry) (f : RoutedFrame) (s : State) :
    (routeCapture e f s).keyList = s.keyList := by
  unfold routeCapture; split <;> simp

@[simp] theorem routeCapture_live (e : RouteEntry) (f : RoutedFrame) (s : State) :
    (routeCapture e f s).live = s.live := by
  unfold routeCapture; split <;> simp

@[simp] theorem routeCapture_log (e : RouteEntry) (f : RoutedFrame) (s : State) :
    (routeCapture e f s).log = s.log := by
  unfold routeCapture; split <;> simp

@[simp] theorem routeCapture_temp (e : RouteEntry) (f : RoutedFrame) (s : State) :
    (routeCapture e f s).temp = s.temp := by
  unfold routeCapture; split <;> simp

@[simp] theorem routeCapture_heat (e : RouteEntry) (f : RoutedFrame) (s : State) :
    (routeCapture e f s).heat = s.heat := by
  unfold routeCapture; split <;> simp

@[simp] theorem routeCapture_fan (e : RouteEntry) (f : RoutedFrame) (s : State) :
    (routeCapture e f s).fan = s.fan := by
  unfold routeCapture; split <;> simp

@[simp] theorem routeCapture_keypad (e : RouteEntry) (f : RoutedFrame) (s : State) :
    (routeCapture e f s).keypad = s.keypad := by
  unfold routeCapture; split <;> simp

@[simp] theorem routeCapture_keyUnit (e : RouteEntry) (f : RoutedFrame) (s : State) :
    (routeCapture e f s).keyUnit = s.keyUnit := by
  unfold routeCapture; split <;> simp

@[simp] theorem routeCapture_mgmt (e : RouteEntry) (f : RoutedFrame) (s : State) :
    (routeCapture e f s).mgmt = s.mgmt := by
  unfold routeCapture; split <;> simp

@[simp] theorem routeCapture_tables (e : RouteEntry) (f : RoutedFrame) (s : State) :
    (routeCapture e f s).tables = s.tables := by
  unfold routeCapture; split <;> simp

@[simp] theorem routeCapture_store (e : RouteEntry) (f : RoutedFrame) (s : State) :
    (routeCapture e f s).store = s.store := by
  unfold routeCapture; split <;> simp

/-! ### routeFeed -/

@[simp] theorem routeFeed_pending (e : RouteEntry) (f : RoutedFrame) (s : State) :
    (routeFeed e f s).pending = s.pending := by
  unfold routeFeed; split <;> simp

@[simp] theorem routeFeed_clock (e : RouteEntry) (f : RoutedFrame) (s : State) :
    (routeFeed e f s).clock = s.clock := by
  unfold routeFeed; split <;> simp

@[simp] theorem routeFeed_pool (e : RouteEntry) (f : RoutedFrame) (s : State) :
    (routeFeed e f s).pool = s.pool := by
  unfold routeFeed; split <;> simp

@[simp] theorem routeFeed_hostPort (e : RouteEntry) (f : RoutedFrame) (s : State) :
    (routeFeed e f s).hostPort = s.hostPort := by
  unfold routeFeed; split <;> simp

@[simp] theorem routeFeed_noticeNo (e : RouteEntry) (f : RoutedFrame) (s : State) :
    (routeFeed e f s).noticeNo = s.noticeNo := by
  unfold routeFeed; split <;> simp

@[simp] theorem routeFeed_flags (e : RouteEntry) (f : RoutedFrame) (s : State) :
    (routeFeed e f s).flags = s.flags := by
  unfold routeFeed; split <;> simp

@[simp] theorem routeFeed_log (e : RouteEntry) (f : RoutedFrame) (s : State) : (routeFeed e f s).log = s.log := by
  unfold routeFeed; split <;> simp

@[simp] theorem routeFeed_temp (e : RouteEntry) (f : RoutedFrame) (s : State) :
    (routeFeed e f s).temp = s.temp := by
  unfold routeFeed; split <;> simp

@[simp] theorem routeFeed_fan (e : RouteEntry) (f : RoutedFrame) (s : State) : (routeFeed e f s).fan = s.fan := by
  unfold routeFeed; split <;> simp

@[simp] theorem routeFeed_keypad (e : RouteEntry) (f : RoutedFrame) (s : State) :
    (routeFeed e f s).keypad = s.keypad := by
  unfold routeFeed; split <;> simp

@[simp] theorem routeFeed_mgmt (e : RouteEntry) (f : RoutedFrame) (s : State) :
    (routeFeed e f s).mgmt = s.mgmt := by
  unfold routeFeed; split <;> simp

@[simp] theorem routeFeed_tables (e : RouteEntry) (f : RoutedFrame) (s : State) :
    (routeFeed e f s).tables = s.tables := by
  unfold routeFeed; split <;> simp

@[simp] theorem routeFeed_store (e : RouteEntry) (f : RoutedFrame) (s : State) :
    (routeFeed e f s).store = s.store := by
  unfold routeFeed; split <;> simp

/-! ### endMatched -/

@[simp] theorem endMatched_pending (m : Option ExchangeId) (s : State) : (endMatched m s).pending = s.pending := by
  unfold endMatched; split <;> simp

@[simp] theorem endMatched_clock (m : Option ExchangeId) (s : State) : (endMatched m s).clock = s.clock := by
  unfold endMatched; split <;> simp

@[simp] theorem endMatched_pool (m : Option ExchangeId) (s : State) : (endMatched m s).pool = s.pool := by
  unfold endMatched; split <;> simp

@[simp] theorem endMatched_hostPort (m : Option ExchangeId) (s : State) :
    (endMatched m s).hostPort = s.hostPort := by
  unfold endMatched; split <;> simp

@[simp] theorem endMatched_fieldPort (m : Option ExchangeId) (s : State) :
    (endMatched m s).fieldPort = s.fieldPort := by
  unfold endMatched; split <;> simp

@[simp] theorem endMatched_noticeNo (m : Option ExchangeId) (s : State) :
    (endMatched m s).noticeNo = s.noticeNo := by
  unfold endMatched; split <;> simp

@[simp] theorem endMatched_flags (m : Option ExchangeId) (s : State) : (endMatched m s).flags = s.flags := by
  unfold endMatched; split <;> simp

@[simp] theorem endMatched_proxy (m : Option ExchangeId) (s : State) : (endMatched m s).proxy = s.proxy := by
  unfold endMatched; split <;> simp

@[simp] theorem endMatched_keyList (m : Option ExchangeId) (s : State) : (endMatched m s).keyList = s.keyList := by
  unfold endMatched; split <;> simp

@[simp] theorem endMatched_live (m : Option ExchangeId) (s : State) : (endMatched m s).live = s.live := by
  unfold endMatched; split <;> simp

@[simp] theorem endMatched_log (m : Option ExchangeId) (s : State) : (endMatched m s).log = s.log := by
  unfold endMatched; split <;> simp

@[simp] theorem endMatched_temp (m : Option ExchangeId) (s : State) : (endMatched m s).temp = s.temp := by
  unfold endMatched; split <;> simp

@[simp] theorem endMatched_heat (m : Option ExchangeId) (s : State) : (endMatched m s).heat = s.heat := by
  unfold endMatched; split <;> simp

@[simp] theorem endMatched_fan (m : Option ExchangeId) (s : State) : (endMatched m s).fan = s.fan := by
  unfold endMatched; split <;> simp

@[simp] theorem endMatched_keypad (m : Option ExchangeId) (s : State) : (endMatched m s).keypad = s.keypad := by
  unfold endMatched; split <;> simp

@[simp] theorem endMatched_keyUnit (m : Option ExchangeId) (s : State) : (endMatched m s).keyUnit = s.keyUnit := by
  unfold endMatched; split <;> simp

@[simp] theorem endMatched_mgmt (m : Option ExchangeId) (s : State) : (endMatched m s).mgmt = s.mgmt := by
  unfold endMatched; split <;> simp

@[simp] theorem endMatched_tables (m : Option ExchangeId) (s : State) : (endMatched m s).tables = s.tables := by
  unfold endMatched; split <;> simp

@[simp] theorem endMatched_store (m : Option ExchangeId) (s : State) : (endMatched m s).store = s.store := by
  unfold endMatched; split <;> simp

/-! ### defaultHandling -/

@[simp] theorem defaultHandling_pending (f : RoutedFrame) (s : State) :
    (defaultHandling f s).pending = s.pending := by
  simp only [defaultHandling, offerBareReply]; (repeat' split) <;> simp

@[simp] theorem defaultHandling_clock (f : RoutedFrame) (s : State) : (defaultHandling f s).clock = s.clock := by
  simp only [defaultHandling, offerBareReply]; (repeat' split) <;> simp

@[simp] theorem defaultHandling_flags (f : RoutedFrame) (s : State) : (defaultHandling f s).flags = s.flags := by
  simp only [defaultHandling, offerBareReply]; (repeat' split) <;> simp

@[simp] theorem defaultHandling_live (f : RoutedFrame) (s : State) : (defaultHandling f s).live = s.live := by
  simp only [defaultHandling, offerBareReply]; (repeat' split) <;> simp

@[simp] theorem defaultHandling_log (f : RoutedFrame) (s : State) : (defaultHandling f s).log = s.log := by
  simp only [defaultHandling, offerBareReply]; (repeat' split) <;> simp

@[simp] theorem defaultHandling_temp (f : RoutedFrame) (s : State) : (defaultHandling f s).temp = s.temp := by
  simp only [defaultHandling, offerBareReply]; (repeat' split) <;> simp

@[simp] theorem defaultHandling_heat (f : RoutedFrame) (s : State) : (defaultHandling f s).heat = s.heat := by
  simp only [defaultHandling, offerBareReply]; (repeat' split) <;> simp

@[simp] theorem defaultHandling_fan (f : RoutedFrame) (s : State) : (defaultHandling f s).fan = s.fan := by
  simp only [defaultHandling, offerBareReply]; (repeat' split) <;> simp

@[simp] theorem defaultHandling_keypad (f : RoutedFrame) (s : State) :
    (defaultHandling f s).keypad = s.keypad := by
  simp only [defaultHandling, offerBareReply]; (repeat' split) <;> simp

@[simp] theorem defaultHandling_mgmt (f : RoutedFrame) (s : State) : (defaultHandling f s).mgmt = s.mgmt := by
  simp only [defaultHandling, offerBareReply]; (repeat' split) <;> simp

@[simp] theorem defaultHandling_tables (f : RoutedFrame) (s : State) :
    (defaultHandling f s).tables = s.tables := by
  simp only [defaultHandling, offerBareReply]; (repeat' split) <;> simp

@[simp] theorem defaultHandling_store (f : RoutedFrame) (s : State) : (defaultHandling f s).store = s.store := by
  simp only [defaultHandling, offerBareReply]; (repeat' split) <;> simp

/-! ### routeByLookup -/

@[simp] theorem routeByLookup_pending (f : RoutedFrame) (m : Option ExchangeId) (s : State) :
    (routeByLookup f m s).pending = s.pending := by
  simp only [routeByLookup]; split <;> simp

@[simp] theorem routeByLookup_clock (f : RoutedFrame) (m : Option ExchangeId) (s : State) :
    (routeByLookup f m s).clock = s.clock := by
  simp only [routeByLookup]; split <;> simp

@[simp] theorem routeByLookup_log (f : RoutedFrame) (m : Option ExchangeId) (s : State) :
    (routeByLookup f m s).log = s.log := by
  simp only [routeByLookup]; split <;> simp

@[simp] theorem routeByLookup_temp (f : RoutedFrame) (m : Option ExchangeId) (s : State) :
    (routeByLookup f m s).temp = s.temp := by
  simp only [routeByLookup]; split <;> simp

@[simp] theorem routeByLookup_fan (f : RoutedFrame) (m : Option ExchangeId) (s : State) :
    (routeByLookup f m s).fan = s.fan := by
  simp only [routeByLookup]; split <;> simp

@[simp] theorem routeByLookup_keypad (f : RoutedFrame) (m : Option ExchangeId) (s : State) :
    (routeByLookup f m s).keypad = s.keypad := by
  simp only [routeByLookup]; split <;> simp

@[simp] theorem routeByLookup_mgmt (f : RoutedFrame) (m : Option ExchangeId) (s : State) :
    (routeByLookup f m s).mgmt = s.mgmt := by
  simp only [routeByLookup]; split <;> simp

@[simp] theorem routeByLookup_store (f : RoutedFrame) (m : Option ExchangeId) (s : State) :
    (routeByLookup f m s).store = s.store := by
  simp only [routeByLookup]; split <;> simp

/-! ### routeLate -/

@[simp] theorem routeLate_pending (f : RoutedFrame) (r : Request) (s : State) :
    (routeLate f r s).pending = s.pending := by
  simp only [routeLate]; split <;> simp

@[simp] theorem routeLate_clock (f : RoutedFrame) (r : Request) (s : State) :
    (routeLate f r s).clock = s.clock := by
  simp only [routeLate]; split <;> simp

@[simp] theorem routeLate_fieldPort (f : RoutedFrame) (r : Request) (s : State) :
    (routeLate f r s).fieldPort = s.fieldPort := by
  simp only [routeLate]; split <;> simp

@[simp] theorem routeLate_flags (f : RoutedFrame) (r : Request) (s : State) :
    (routeLate f r s).flags = s.flags := by
  simp only [routeLate]; split <;> simp

@[simp] theorem routeLate_exchanges (f : RoutedFrame) (r : Request) (s : State) :
    (routeLate f r s).exchanges = s.exchanges := by
  simp only [routeLate]; split <;> simp

@[simp] theorem routeLate_keyList (f : RoutedFrame) (r : Request) (s : State) :
    (routeLate f r s).keyList = s.keyList := by
  simp only [routeLate]; split <;> simp

@[simp] theorem routeLate_log (f : RoutedFrame) (r : Request) (s : State) : (routeLate f r s).log = s.log := by
  simp only [routeLate]; split <;> simp

@[simp] theorem routeLate_temp (f : RoutedFrame) (r : Request) (s : State) : (routeLate f r s).temp = s.temp := by
  simp only [routeLate]; split <;> simp

@[simp] theorem routeLate_heat (f : RoutedFrame) (r : Request) (s : State) : (routeLate f r s).heat = s.heat := by
  simp only [routeLate]; split <;> simp

@[simp] theorem routeLate_fan (f : RoutedFrame) (r : Request) (s : State) : (routeLate f r s).fan = s.fan := by
  simp only [routeLate]; split <;> simp

@[simp] theorem routeLate_keypad (f : RoutedFrame) (r : Request) (s : State) :
    (routeLate f r s).keypad = s.keypad := by
  simp only [routeLate]; split <;> simp

@[simp] theorem routeLate_mgmt (f : RoutedFrame) (r : Request) (s : State) : (routeLate f r s).mgmt = s.mgmt := by
  simp only [routeLate]; split <;> simp

@[simp] theorem routeLate_store (f : RoutedFrame) (r : Request) (s : State) :
    (routeLate f r s).store = s.store := by
  simp only [routeLate]; split <;> simp

/-! ### answerKeyList -/

@[simp] theorem answerKeyList_pending (f : RoutedFrame) (s : State) : (answerKeyList f s).pending = s.pending := by
  simp [answerKeyList, copyKeyList]

@[simp] theorem answerKeyList_clock (f : RoutedFrame) (s : State) : (answerKeyList f s).clock = s.clock := by
  simp [answerKeyList, copyKeyList]

@[simp] theorem answerKeyList_flags (f : RoutedFrame) (s : State) : (answerKeyList f s).flags = s.flags := by
  simp [answerKeyList, copyKeyList]

@[simp] theorem answerKeyList_live (f : RoutedFrame) (s : State) : (answerKeyList f s).live = s.live := by
  simp [answerKeyList, copyKeyList]

@[simp] theorem answerKeyList_log (f : RoutedFrame) (s : State) : (answerKeyList f s).log = s.log := by
  simp [answerKeyList, copyKeyList]

@[simp] theorem answerKeyList_temp (f : RoutedFrame) (s : State) : (answerKeyList f s).temp = s.temp := by
  simp [answerKeyList, copyKeyList]

@[simp] theorem answerKeyList_heat (f : RoutedFrame) (s : State) : (answerKeyList f s).heat = s.heat := by
  simp [answerKeyList, copyKeyList]

@[simp] theorem answerKeyList_fan (f : RoutedFrame) (s : State) : (answerKeyList f s).fan = s.fan := by
  simp [answerKeyList, copyKeyList]

@[simp] theorem answerKeyList_keypad (f : RoutedFrame) (s : State) : (answerKeyList f s).keypad = s.keypad := by
  simp [answerKeyList, copyKeyList]

@[simp] theorem answerKeyList_mgmt (f : RoutedFrame) (s : State) : (answerKeyList f s).mgmt = s.mgmt := by
  simp [answerKeyList, copyKeyList]

@[simp] theorem answerKeyList_tables (f : RoutedFrame) (s : State) : (answerKeyList f s).tables = s.tables := by
  simp [answerKeyList, copyKeyList]

@[simp] theorem answerKeyList_store (f : RoutedFrame) (s : State) : (answerKeyList f s).store = s.store := by
  simp [answerKeyList, copyKeyList]

/-! ### routeFrame -/

@[simp] theorem routeFrame_pending (f : RoutedFrame) (s : State) : (routeFrame f s).pending = s.pending := by
  unfold routeFrame routeOwnRequest routeHostReply dropUnsolicited; (repeat' split) <;> simp

@[simp] theorem routeFrame_clock (f : RoutedFrame) (s : State) : (routeFrame f s).clock = s.clock := by
  unfold routeFrame routeOwnRequest routeHostReply dropUnsolicited; (repeat' split) <;> simp

@[simp] theorem routeFrame_log (f : RoutedFrame) (s : State) : (routeFrame f s).log = s.log := by
  unfold routeFrame routeOwnRequest routeHostReply dropUnsolicited; (repeat' split) <;> simp

@[simp] theorem routeFrame_temp (f : RoutedFrame) (s : State) : (routeFrame f s).temp = s.temp := by
  unfold routeFrame routeOwnRequest routeHostReply dropUnsolicited; (repeat' split) <;> simp

@[simp] theorem routeFrame_fan (f : RoutedFrame) (s : State) : (routeFrame f s).fan = s.fan := by
  unfold routeFrame routeOwnRequest routeHostReply dropUnsolicited; (repeat' split) <;> simp

@[simp] theorem routeFrame_keypad (f : RoutedFrame) (s : State) : (routeFrame f s).keypad = s.keypad := by
  unfold routeFrame routeOwnRequest routeHostReply dropUnsolicited; (repeat' split) <;> simp

@[simp] theorem routeFrame_mgmt (f : RoutedFrame) (s : State) : (routeFrame f s).mgmt = s.mgmt := by
  unfold routeFrame routeOwnRequest routeHostReply dropUnsolicited; (repeat' split) <;> simp

@[simp] theorem routeFrame_store (f : RoutedFrame) (s : State) : (routeFrame f s).store = s.store := by
  unfold routeFrame routeOwnRequest routeHostReply dropUnsolicited; (repeat' split) <;> simp

/-! ### dispatchFrame -/

@[simp] theorem dispatchFrame_pending (p : Port) (b : BufferId) (a : Address) (s : State) :
    (dispatchFrame p b a s).pending = s.pending := by
  simp only [dispatchFrame, handToManagement, discardMisaddressed]; (repeat' split) <;> simp

@[simp] theorem dispatchFrame_clock (p : Port) (b : BufferId) (a : Address) (s : State) :
    (dispatchFrame p b a s).clock = s.clock := by
  simp only [dispatchFrame, handToManagement, discardMisaddressed]; (repeat' split) <;> simp

@[simp] theorem dispatchFrame_log (p : Port) (b : BufferId) (a : Address) (s : State) :
    (dispatchFrame p b a s).log = s.log := by
  simp only [dispatchFrame, handToManagement, discardMisaddressed]; (repeat' split) <;> simp

@[simp] theorem dispatchFrame_temp (p : Port) (b : BufferId) (a : Address) (s : State) :
    (dispatchFrame p b a s).temp = s.temp := by
  simp only [dispatchFrame, handToManagement, discardMisaddressed]; (repeat' split) <;> simp

@[simp] theorem dispatchFrame_fan (p : Port) (b : BufferId) (a : Address) (s : State) :
    (dispatchFrame p b a s).fan = s.fan := by
  simp only [dispatchFrame, handToManagement, discardMisaddressed]; (repeat' split) <;> simp

@[simp] theorem dispatchFrame_keypad (p : Port) (b : BufferId) (a : Address) (s : State) :
    (dispatchFrame p b a s).keypad = s.keypad := by
  simp only [dispatchFrame, handToManagement, discardMisaddressed]; (repeat' split) <;> simp

@[simp] theorem dispatchFrame_store (p : Port) (b : BufferId) (a : Address) (s : State) :
    (dispatchFrame p b a s).store = s.store := by
  simp only [dispatchFrame, handToManagement, discardMisaddressed]; (repeat' split) <;> simp

/-! ### acceptFrame -/

@[simp] theorem acceptFrame_pending (p : Port) (b : BufferId) (a : Address) (s : State) :
    (acceptFrame p b a s).pending = s.pending := by
  simp [acceptFrame]

@[simp] theorem acceptFrame_clock (p : Port) (b : BufferId) (a : Address) (s : State) :
    (acceptFrame p b a s).clock = s.clock := by
  simp [acceptFrame]

@[simp] theorem acceptFrame_log (p : Port) (b : BufferId) (a : Address) (s : State) :
    (acceptFrame p b a s).log = s.log := by
  simp [acceptFrame]

@[simp] theorem acceptFrame_temp (p : Port) (b : BufferId) (a : Address) (s : State) :
    (acceptFrame p b a s).temp = s.temp := by
  simp [acceptFrame]

@[simp] theorem acceptFrame_fan (p : Port) (b : BufferId) (a : Address) (s : State) :
    (acceptFrame p b a s).fan = s.fan := by
  simp [acceptFrame]

@[simp] theorem acceptFrame_keypad (p : Port) (b : BufferId) (a : Address) (s : State) :
    (acceptFrame p b a s).keypad = s.keypad := by
  simp [acceptFrame]

@[simp] theorem acceptFrame_store (p : Port) (b : BufferId) (a : Address) (s : State) :
    (acceptFrame p b a s).store = s.store := by
  simp [acceptFrame]

/-! ### completeFrame -/

@[simp] theorem completeFrame_pending (p : Port) (s : State) : (completeFrame p s).pending = s.pending := by
  simp only [completeFrame, rejectFrame]; (repeat' split) <;> simp

@[simp] theorem completeFrame_clock (p : Port) (s : State) : (completeFrame p s).clock = s.clock := by
  simp only [completeFrame, rejectFrame]; (repeat' split) <;> simp

@[simp] theorem completeFrame_log (p : Port) (s : State) : (completeFrame p s).log = s.log := by
  simp only [completeFrame, rejectFrame]; (repeat' split) <;> simp

@[simp] theorem completeFrame_temp (p : Port) (s : State) : (completeFrame p s).temp = s.temp := by
  simp only [completeFrame, rejectFrame]; (repeat' split) <;> simp

@[simp] theorem completeFrame_fan (p : Port) (s : State) : (completeFrame p s).fan = s.fan := by
  simp only [completeFrame, rejectFrame]; (repeat' split) <;> simp

@[simp] theorem completeFrame_keypad (p : Port) (s : State) : (completeFrame p s).keypad = s.keypad := by
  simp only [completeFrame, rejectFrame]; (repeat' split) <;> simp

@[simp] theorem completeFrame_store (p : Port) (s : State) : (completeFrame p s).store = s.store := by
  simp only [completeFrame, rejectFrame]; (repeat' split) <;> simp

/-! ### dropFilling -/

@[simp] theorem dropFilling_pending (p : Port) (b : BufferId) (a : Assembler) (id : CounterId) (s : State) :
    (dropFilling p b a id s).pending = s.pending := by
  simp [dropFilling]

@[simp] theorem dropFilling_clock (p : Port) (b : BufferId) (a : Assembler) (id : CounterId) (s : State) :
    (dropFilling p b a id s).clock = s.clock := by
  simp [dropFilling]

@[simp] theorem dropFilling_flags (p : Port) (b : BufferId) (a : Assembler) (id : CounterId) (s : State) :
    (dropFilling p b a id s).flags = s.flags := by
  simp [dropFilling]

@[simp] theorem dropFilling_exchanges (p : Port) (b : BufferId) (a : Assembler) (id : CounterId) (s : State) :
    (dropFilling p b a id s).exchanges = s.exchanges := by
  simp [dropFilling]

@[simp] theorem dropFilling_proxy (p : Port) (b : BufferId) (a : Assembler) (id : CounterId) (s : State) :
    (dropFilling p b a id s).proxy = s.proxy := by
  simp [dropFilling]

@[simp] theorem dropFilling_keyList (p : Port) (b : BufferId) (a : Assembler) (id : CounterId) (s : State) :
    (dropFilling p b a id s).keyList = s.keyList := by
  simp [dropFilling]

@[simp] theorem dropFilling_live (p : Port) (b : BufferId) (a : Assembler) (id : CounterId) (s : State) :
    (dropFilling p b a id s).live = s.live := by
  simp [dropFilling]

@[simp] theorem dropFilling_log (p : Port) (b : BufferId) (a : Assembler) (id : CounterId) (s : State) :
    (dropFilling p b a id s).log = s.log := by
  simp [dropFilling]

@[simp] theorem dropFilling_temp (p : Port) (b : BufferId) (a : Assembler) (id : CounterId) (s : State) :
    (dropFilling p b a id s).temp = s.temp := by
  simp [dropFilling]

@[simp] theorem dropFilling_heat (p : Port) (b : BufferId) (a : Assembler) (id : CounterId) (s : State) :
    (dropFilling p b a id s).heat = s.heat := by
  simp [dropFilling]

@[simp] theorem dropFilling_fan (p : Port) (b : BufferId) (a : Assembler) (id : CounterId) (s : State) :
    (dropFilling p b a id s).fan = s.fan := by
  simp [dropFilling]

@[simp] theorem dropFilling_keypad (p : Port) (b : BufferId) (a : Assembler) (id : CounterId) (s : State) :
    (dropFilling p b a id s).keypad = s.keypad := by
  simp [dropFilling]

@[simp] theorem dropFilling_mgmt (p : Port) (b : BufferId) (a : Assembler) (id : CounterId) (s : State) :
    (dropFilling p b a id s).mgmt = s.mgmt := by
  simp [dropFilling]

@[simp] theorem dropFilling_tables (p : Port) (b : BufferId) (a : Assembler) (id : CounterId) (s : State) :
    (dropFilling p b a id s).tables = s.tables := by
  simp [dropFilling]

@[simp] theorem dropFilling_store (p : Port) (b : BufferId) (a : Assembler) (id : CounterId) (s : State) :
    (dropFilling p b a id s).store = s.store := by
  simp [dropFilling]

/-! ### startFrame -/

@[simp] theorem startFrame_pending (p : Port) (x : Byte) (s : State) : (startFrame p x s).pending = s.pending := by
  simp only [startFrame, discardNoBuffer, beginFilling]; (repeat' split) <;> simp

@[simp] theorem startFrame_clock (p : Port) (x : Byte) (s : State) : (startFrame p x s).clock = s.clock := by
  simp only [startFrame, discardNoBuffer, beginFilling]; (repeat' split) <;> simp

@[simp] theorem startFrame_flags (p : Port) (x : Byte) (s : State) : (startFrame p x s).flags = s.flags := by
  simp only [startFrame, discardNoBuffer, beginFilling]; (repeat' split) <;> simp

@[simp] theorem startFrame_exchanges (p : Port) (x : Byte) (s : State) :
    (startFrame p x s).exchanges = s.exchanges := by
  simp only [startFrame, discardNoBuffer, beginFilling]; (repeat' split) <;> simp

@[simp] theorem startFrame_proxy (p : Port) (x : Byte) (s : State) : (startFrame p x s).proxy = s.proxy := by
  simp only [startFrame, discardNoBuffer, beginFilling]; (repeat' split) <;> simp

@[simp] theorem startFrame_keyList (p : Port) (x : Byte) (s : State) : (startFrame p x s).keyList = s.keyList := by
  simp only [startFrame, discardNoBuffer, beginFilling]; (repeat' split) <;> simp

@[simp] theorem startFrame_live (p : Port) (x : Byte) (s : State) : (startFrame p x s).live = s.live := by
  simp only [startFrame, discardNoBuffer, beginFilling]; (repeat' split) <;> simp

@[simp] theorem startFrame_log (p : Port) (x : Byte) (s : State) : (startFrame p x s).log = s.log := by
  simp only [startFrame, discardNoBuffer, beginFilling]; (repeat' split) <;> simp

@[simp] theorem startFrame_temp (p : Port) (x : Byte) (s : State) : (startFrame p x s).temp = s.temp := by
  simp only [startFrame, discardNoBuffer, beginFilling]; (repeat' split) <;> simp

@[simp] theorem startFrame_heat (p : Port) (x : Byte) (s : State) : (startFrame p x s).heat = s.heat := by
  simp only [startFrame, discardNoBuffer, beginFilling]; (repeat' split) <;> simp

@[simp] theorem startFrame_fan (p : Port) (x : Byte) (s : State) : (startFrame p x s).fan = s.fan := by
  simp only [startFrame, discardNoBuffer, beginFilling]; (repeat' split) <;> simp

@[simp] theorem startFrame_keypad (p : Port) (x : Byte) (s : State) : (startFrame p x s).keypad = s.keypad := by
  simp only [startFrame, discardNoBuffer, beginFilling]; (repeat' split) <;> simp

@[simp] theorem startFrame_mgmt (p : Port) (x : Byte) (s : State) : (startFrame p x s).mgmt = s.mgmt := by
  simp only [startFrame, discardNoBuffer, beginFilling]; (repeat' split) <;> simp

@[simp] theorem startFrame_tables (p : Port) (x : Byte) (s : State) : (startFrame p x s).tables = s.tables := by
  simp only [startFrame, discardNoBuffer, beginFilling]; (repeat' split) <;> simp

@[simp] theorem startFrame_store (p : Port) (x : Byte) (s : State) : (startFrame p x s).store = s.store := by
  simp only [startFrame, discardNoBuffer, beginFilling]; (repeat' split) <;> simp

/-! ### takeCharacter -/

@[simp] theorem takeCharacter_pending (p : Port) (c : Character) (s : State) :
    (takeCharacter p c s).pending = s.pending := by
  simp only [takeCharacter, takeMarker, takePlain, takeBad, appendByte]; (repeat' split) <;> simp

@[simp] theorem takeCharacter_clock (p : Port) (c : Character) (s : State) :
    (takeCharacter p c s).clock = s.clock := by
  simp only [takeCharacter, takeMarker, takePlain, takeBad, appendByte]; (repeat' split) <;> simp

@[simp] theorem takeCharacter_flags (p : Port) (c : Character) (s : State) :
    (takeCharacter p c s).flags = s.flags := by
  simp only [takeCharacter, takeMarker, takePlain, takeBad, appendByte]; (repeat' split) <;> simp

@[simp] theorem takeCharacter_exchanges (p : Port) (c : Character) (s : State) :
    (takeCharacter p c s).exchanges = s.exchanges := by
  simp only [takeCharacter, takeMarker, takePlain, takeBad, appendByte]; (repeat' split) <;> simp

@[simp] theorem takeCharacter_proxy (p : Port) (c : Character) (s : State) :
    (takeCharacter p c s).proxy = s.proxy := by
  simp only [takeCharacter, takeMarker, takePlain, takeBad, appendByte]; (repeat' split) <;> simp

@[simp] theorem takeCharacter_keyList (p : Port) (c : Character) (s : State) :
    (takeCharacter p c s).keyList = s.keyList := by
  simp only [takeCharacter, takeMarker, takePlain, takeBad, appendByte]; (repeat' split) <;> simp

@[simp] theorem takeCharacter_live (p : Port) (c : Character) (s : State) :
    (takeCharacter p c s).live = s.live := by
  simp only [takeCharacter, takeMarker, takePlain, takeBad, appendByte]; (repeat' split) <;> simp

@[simp] theorem takeCharacter_log (p : Port) (c : Character) (s : State) : (takeCharacter p c s).log = s.log := by
  simp only [takeCharacter, takeMarker, takePlain, takeBad, appendByte]; (repeat' split) <;> simp

@[simp] theorem takeCharacter_temp (p : Port) (c : Character) (s : State) :
    (takeCharacter p c s).temp = s.temp := by
  simp only [takeCharacter, takeMarker, takePlain, takeBad, appendByte]; (repeat' split) <;> simp

@[simp] theorem takeCharacter_heat (p : Port) (c : Character) (s : State) :
    (takeCharacter p c s).heat = s.heat := by
  simp only [takeCharacter, takeMarker, takePlain, takeBad, appendByte]; (repeat' split) <;> simp

@[simp] theorem takeCharacter_fan (p : Port) (c : Character) (s : State) : (takeCharacter p c s).fan = s.fan := by
  simp only [takeCharacter, takeMarker, takePlain, takeBad, appendByte]; (repeat' split) <;> simp

@[simp] theorem takeCharacter_keypad (p : Port) (c : Character) (s : State) :
    (takeCharacter p c s).keypad = s.keypad := by
  simp only [takeCharacter, takeMarker, takePlain, takeBad, appendByte]; (repeat' split) <;> simp

@[simp] theorem takeCharacter_mgmt (p : Port) (c : Character) (s : State) :
    (takeCharacter p c s).mgmt = s.mgmt := by
  simp only [takeCharacter, takeMarker, takePlain, takeBad, appendByte]; (repeat' split) <;> simp

@[simp] theorem takeCharacter_tables (p : Port) (c : Character) (s : State) :
    (takeCharacter p c s).tables = s.tables := by
  simp only [takeCharacter, takeMarker, takePlain, takeBad, appendByte]; (repeat' split) <;> simp

@[simp] theorem takeCharacter_store (p : Port) (c : Character) (s : State) :
    (takeCharacter p c s).store = s.store := by
  simp only [takeCharacter, takeMarker, takePlain, takeBad, appendByte]; (repeat' split) <;> simp

/-! ### receive -/

@[simp] theorem receive_pending (p : Port) (e : Reception) (s : State) : (receive p e s).pending = s.pending := by
  cases e <;> simp [receive]

@[simp] theorem receive_clock (p : Port) (e : Reception) (s : State) : (receive p e s).clock = s.clock := by
  cases e <;> simp [receive]

@[simp] theorem receive_flags (p : Port) (e : Reception) (s : State) : (receive p e s).flags = s.flags := by
  cases e <;> simp [receive]

@[simp] theorem receive_exchanges (p : Port) (e : Reception) (s : State) : (receive p e s).exchanges = s.exchanges := by
  cases e <;> simp [receive]

@[simp] theorem receive_proxy (p : Port) (e : Reception) (s : State) : (receive p e s).proxy = s.proxy := by
  cases e <;> simp [receive]

@[simp] theorem receive_keyList (p : Port) (e : Reception) (s : State) : (receive p e s).keyList = s.keyList := by
  cases e <;> simp [receive]

@[simp] theorem receive_live (p : Port) (e : Reception) (s : State) : (receive p e s).live = s.live := by
  cases e <;> simp [receive]

@[simp] theorem receive_log (p : Port) (e : Reception) (s : State) : (receive p e s).log = s.log := by
  cases e <;> simp [receive]

@[simp] theorem receive_temp (p : Port) (e : Reception) (s : State) : (receive p e s).temp = s.temp := by
  cases e <;> simp [receive]

@[simp] theorem receive_heat (p : Port) (e : Reception) (s : State) : (receive p e s).heat = s.heat := by
  cases e <;> simp [receive]

@[simp] theorem receive_fan (p : Port) (e : Reception) (s : State) : (receive p e s).fan = s.fan := by
  cases e <;> simp [receive]

@[simp] theorem receive_keypad (p : Port) (e : Reception) (s : State) : (receive p e s).keypad = s.keypad := by
  cases e <;> simp [receive]

@[simp] theorem receive_mgmt (p : Port) (e : Reception) (s : State) : (receive p e s).mgmt = s.mgmt := by
  cases e <;> simp [receive]

@[simp] theorem receive_tables (p : Port) (e : Reception) (s : State) : (receive p e s).tables = s.tables := by
  cases e <;> simp [receive]

@[simp] theorem receive_store (p : Port) (e : Reception) (s : State) : (receive p e s).store = s.store := by
  cases e <;> simp [receive]

/-! ### startHostSending -/

@[simp] theorem startHostSending_pending (b : BufferId) (rest : List BufferId) (s : State) :
    (startHostSending b rest s).pending = s.pending := by
  simp [startHostSending]

@[simp] theorem startHostSending_clock (b : BufferId) (rest : List BufferId) (s : State) :
    (startHostSending b rest s).clock = s.clock := by
  simp [startHostSending]

@[simp] theorem startHostSending_fieldPort (b : BufferId) (rest : List BufferId) (s : State) :
    (startHostSending b rest s).fieldPort = s.fieldPort := by
  simp [startHostSending]

@[simp] theorem startHostSending_flags (b : BufferId) (rest : List BufferId) (s : State) :
    (startHostSending b rest s).flags = s.flags := by
  simp [startHostSending]

@[simp] theorem startHostSending_exchanges (b : BufferId) (rest : List BufferId) (s : State) :
    (startHostSending b rest s).exchanges = s.exchanges := by
  simp [startHostSending]

@[simp] theorem startHostSending_proxy (b : BufferId) (rest : List BufferId) (s : State) :
    (startHostSending b rest s).proxy = s.proxy := by
  simp [startHostSending]

@[simp] theorem startHostSending_keyList (b : BufferId) (rest : List BufferId) (s : State) :
    (startHostSending b rest s).keyList = s.keyList := by
  simp [startHostSending]

@[simp] theorem startHostSending_live (b : BufferId) (rest : List BufferId) (s : State) :
    (startHostSending b rest s).live = s.live := by
  simp [startHostSending]

@[simp] theorem startHostSending_log (b : BufferId) (rest : List BufferId) (s : State) :
    (startHostSending b rest s).log = s.log := by
  simp [startHostSending]

@[simp] theorem startHostSending_temp (b : BufferId) (rest : List BufferId) (s : State) :
    (startHostSending b rest s).temp = s.temp := by
  simp [startHostSending]

@[simp] theorem startHostSending_heat (b : BufferId) (rest : List BufferId) (s : State) :
    (startHostSending b rest s).heat = s.heat := by
  simp [startHostSending]

@[simp] theorem startHostSending_fan (b : BufferId) (rest : List BufferId) (s : State) :
    (startHostSending b rest s).fan = s.fan := by
  simp [startHostSending]

@[simp] theorem startHostSending_keypad (b : BufferId) (rest : List BufferId) (s : State) :
    (startHostSending b rest s).keypad = s.keypad := by
  simp [startHostSending]

@[simp] theorem startHostSending_mgmt (b : BufferId) (rest : List BufferId) (s : State) :
    (startHostSending b rest s).mgmt = s.mgmt := by
  simp [startHostSending]

@[simp] theorem startHostSending_tables (b : BufferId) (rest : List BufferId) (s : State) :
    (startHostSending b rest s).tables = s.tables := by
  simp [startHostSending]

@[simp] theorem startHostSending_store (b : BufferId) (rest : List BufferId) (s : State) :
    (startHostSending b rest s).store = s.store := by
  simp [startHostSending]

/-! ### markSending -/

@[simp] theorem markSending_pending (i : FieldItem) (s : State) : (markSending i s).pending = s.pending := by
  cases i <;> rfl

@[simp] theorem markSending_clock (i : FieldItem) (s : State) : (markSending i s).clock = s.clock := by
  cases i <;> rfl

@[simp] theorem markSending_hostPort (i : FieldItem) (s : State) : (markSending i s).hostPort = s.hostPort := by
  cases i <;> rfl

@[simp] theorem markSending_fieldPort (i : FieldItem) (s : State) : (markSending i s).fieldPort = s.fieldPort := by
  cases i <;> rfl

@[simp] theorem markSending_noticeNo (i : FieldItem) (s : State) : (markSending i s).noticeNo = s.noticeNo := by
  cases i <;> rfl

@[simp] theorem markSending_flags (i : FieldItem) (s : State) : (markSending i s).flags = s.flags := by
  cases i <;> rfl

@[simp] theorem markSending_exchanges (i : FieldItem) (s : State) : (markSending i s).exchanges = s.exchanges := by
  cases i <;> rfl

@[simp] theorem markSending_proxy (i : FieldItem) (s : State) : (markSending i s).proxy = s.proxy := by
  cases i <;> rfl

@[simp] theorem markSending_keyList (i : FieldItem) (s : State) : (markSending i s).keyList = s.keyList := by
  cases i <;> rfl

@[simp] theorem markSending_live (i : FieldItem) (s : State) : (markSending i s).live = s.live := by cases i <;> rfl

@[simp] theorem markSending_log (i : FieldItem) (s : State) : (markSending i s).log = s.log := by cases i <;> rfl

@[simp] theorem markSending_temp (i : FieldItem) (s : State) : (markSending i s).temp = s.temp := by cases i <;> rfl

@[simp] theorem markSending_heat (i : FieldItem) (s : State) : (markSending i s).heat = s.heat := by cases i <;> rfl

@[simp] theorem markSending_fan (i : FieldItem) (s : State) : (markSending i s).fan = s.fan := by cases i <;> rfl

@[simp] theorem markSending_keypad (i : FieldItem) (s : State) : (markSending i s).keypad = s.keypad := by
  cases i <;> rfl

@[simp] theorem markSending_keyUnit (i : FieldItem) (s : State) : (markSending i s).keyUnit = s.keyUnit := by
  cases i <;> rfl

@[simp] theorem markSending_mgmt (i : FieldItem) (s : State) : (markSending i s).mgmt = s.mgmt := by cases i <;> rfl

@[simp] theorem markSending_tables (i : FieldItem) (s : State) : (markSending i s).tables = s.tables := by
  cases i <;> rfl

@[simp] theorem markSending_store (i : FieldItem) (s : State) : (markSending i s).store = s.store := by
  cases i <;> rfl

@[simp] theorem markSending_counters (i : FieldItem) (s : State) : (markSending i s).counters = s.counters := by
  cases i <;> rfl

/-! ### finishItem -/

@[simp] theorem finishItem_pending (i : FieldItem) (s : State) : (finishItem i s).pending = s.pending := by
  unfold finishItem finishDescriptor; (repeat' split) <;> simp

@[simp] theorem finishItem_clock (i : FieldItem) (s : State) : (finishItem i s).clock = s.clock := by
  unfold finishItem finishDescriptor; (repeat' split) <;> simp

@[simp] theorem finishItem_fieldPort (i : FieldItem) (s : State) : (finishItem i s).fieldPort = s.fieldPort := by
  unfold finishItem finishDescriptor; (repeat' split) <;> simp

@[simp] theorem finishItem_flags (i : FieldItem) (s : State) : (finishItem i s).flags = s.flags := by
  unfold finishItem finishDescriptor; (repeat' split) <;> simp

@[simp] theorem finishItem_exchanges (i : FieldItem) (s : State) : (finishItem i s).exchanges = s.exchanges := by
  unfold finishItem finishDescriptor; (repeat' split) <;> simp

@[simp] theorem finishItem_live (i : FieldItem) (s : State) : (finishItem i s).live = s.live := by
  unfold finishItem finishDescriptor; (repeat' split) <;> simp

@[simp] theorem finishItem_log (i : FieldItem) (s : State) : (finishItem i s).log = s.log := by
  unfold finishItem finishDescriptor; (repeat' split) <;> simp

@[simp] theorem finishItem_temp (i : FieldItem) (s : State) : (finishItem i s).temp = s.temp := by
  unfold finishItem finishDescriptor; (repeat' split) <;> simp

@[simp] theorem finishItem_heat (i : FieldItem) (s : State) : (finishItem i s).heat = s.heat := by
  unfold finishItem finishDescriptor; (repeat' split) <;> simp

@[simp] theorem finishItem_fan (i : FieldItem) (s : State) : (finishItem i s).fan = s.fan := by
  unfold finishItem finishDescriptor; (repeat' split) <;> simp

@[simp] theorem finishItem_keypad (i : FieldItem) (s : State) : (finishItem i s).keypad = s.keypad := by
  unfold finishItem finishDescriptor; (repeat' split) <;> simp

@[simp] theorem finishItem_mgmt (i : FieldItem) (s : State) : (finishItem i s).mgmt = s.mgmt := by
  unfold finishItem finishDescriptor; (repeat' split) <;> simp

@[simp] theorem finishItem_tables (i : FieldItem) (s : State) : (finishItem i s).tables = s.tables := by
  unfold finishItem finishDescriptor; (repeat' split) <;> simp

@[simp] theorem finishItem_store (i : FieldItem) (s : State) : (finishItem i s).store = s.store := by
  unfold finishItem finishDescriptor; (repeat' split) <;> simp

/-! ### thermalNotice -/

@[simp] theorem thermalNotice_pending (x : Sensor) (event : Nat) (s : State) :
    (thermalNotice x event s).pending = s.pending := by
  simp [thermalNotice]

@[simp] theorem thermalNotice_clock (x : Sensor) (event : Nat) (s : State) :
    (thermalNotice x event s).clock = s.clock := by
  simp [thermalNotice]

@[simp] theorem thermalNotice_fieldPort (x : Sensor) (event : Nat) (s : State) :
    (thermalNotice x event s).fieldPort = s.fieldPort := by
  simp [thermalNotice]

@[simp] theorem thermalNotice_flags (x : Sensor) (event : Nat) (s : State) :
    (thermalNotice x event s).flags = s.flags := by
  simp [thermalNotice]

@[simp] theorem thermalNotice_exchanges (x : Sensor) (event : Nat) (s : State) :
    (thermalNotice x event s).exchanges = s.exchanges := by
  simp [thermalNotice]

@[simp] theorem thermalNotice_proxy (x : Sensor) (event : Nat) (s : State) :
    (thermalNotice x event s).proxy = s.proxy := by
  simp [thermalNotice]

@[simp] theorem thermalNotice_keyList (x : Sensor) (event : Nat) (s : State) :
    (thermalNotice x event s).keyList = s.keyList := by
  simp [thermalNotice]

@[simp] theorem thermalNotice_live (x : Sensor) (event : Nat) (s : State) :
    (thermalNotice x event s).live = s.live := by
  simp [thermalNotice]

@[simp] theorem thermalNotice_log (x : Sensor) (event : Nat) (s : State) :
    (thermalNotice x event s).log = s.log := by
  simp [thermalNotice]

@[simp] theorem thermalNotice_temp (x : Sensor) (event : Nat) (s : State) :
    (thermalNotice x event s).temp = s.temp := by
  simp [thermalNotice]

@[simp] theorem thermalNotice_heat (x : Sensor) (event : Nat) (s : State) :
    (thermalNotice x event s).heat = s.heat := by
  simp [thermalNotice]

@[simp] theorem thermalNotice_fan (x : Sensor) (event : Nat) (s : State) :
    (thermalNotice x event s).fan = s.fan := by
  simp [thermalNotice]

@[simp] theorem thermalNotice_keypad (x : Sensor) (event : Nat) (s : State) :
    (thermalNotice x event s).keypad = s.keypad := by
  simp [thermalNotice]

@[simp] theorem thermalNotice_keyUnit (x : Sensor) (event : Nat) (s : State) :
    (thermalNotice x event s).keyUnit = s.keyUnit := by
  simp [thermalNotice]

@[simp] theorem thermalNotice_mgmt (x : Sensor) (event : Nat) (s : State) :
    (thermalNotice x event s).mgmt = s.mgmt := by
  simp [thermalNotice]

@[simp] theorem thermalNotice_tables (x : Sensor) (event : Nat) (s : State) :
    (thermalNotice x event s).tables = s.tables := by
  simp [thermalNotice]

@[simp] theorem thermalNotice_store (x : Sensor) (event : Nat) (s : State) :
    (thermalNotice x event s).store = s.store := by
  simp [thermalNotice]

/-! ### sampleChannel -/

@[simp] theorem sampleChannel_pending (x : Sensor) (c : SensorCode) (s : State) :
    (sampleChannel x c s).pending = s.pending := by
  simp only [sampleChannel]; (repeat' split) <;> simp

@[simp] theorem sampleChannel_clock (x : Sensor) (c : SensorCode) (s : State) :
    (sampleChannel x c s).clock = s.clock := by
  simp only [sampleChannel]; (repeat' split) <;> simp

@[simp] theorem sampleChannel_fieldPort (x : Sensor) (c : SensorCode) (s : State) :
    (sampleChannel x c s).fieldPort = s.fieldPort := by
  simp only [sampleChannel]; (repeat' split) <;> simp

@[simp] theorem sampleChannel_flags (x : Sensor) (c : SensorCode) (s : State) :
    (sampleChannel x c s).flags = s.flags := by
  simp only [sampleChannel]; (repeat' split) <;> simp

@[simp] theorem sampleChannel_exchanges (x : Sensor) (c : SensorCode) (s : State) :
    (sampleChannel x c s).exchanges = s.exchanges := by
  simp only [sampleChannel]; (repeat' split) <;> simp

@[simp] theorem sampleChannel_proxy (x : Sensor) (c : SensorCode) (s : State) :
    (sampleChannel x c s).proxy = s.proxy := by
  simp only [sampleChannel]; (repeat' split) <;> simp

@[simp] theorem sampleChannel_keyList (x : Sensor) (c : SensorCode) (s : State) :
    (sampleChannel x c s).keyList = s.keyList := by
  simp only [sampleChannel]; (repeat' split) <;> simp

@[simp] theorem sampleChannel_live (x : Sensor) (c : SensorCode) (s : State) :
    (sampleChannel x c s).live = s.live := by
  simp only [sampleChannel]; (repeat' split) <;> simp

@[simp] theorem sampleChannel_log (x : Sensor) (c : SensorCode) (s : State) :
    (sampleChannel x c s).log = s.log := by
  simp only [sampleChannel]; (repeat' split) <;> simp

@[simp] theorem sampleChannel_heat (x : Sensor) (c : SensorCode) (s : State) :
    (sampleChannel x c s).heat = s.heat := by
  simp only [sampleChannel]; (repeat' split) <;> simp

@[simp] theorem sampleChannel_fan (x : Sensor) (c : SensorCode) (s : State) :
    (sampleChannel x c s).fan = s.fan := by
  simp only [sampleChannel]; (repeat' split) <;> simp

@[simp] theorem sampleChannel_keypad (x : Sensor) (c : SensorCode) (s : State) :
    (sampleChannel x c s).keypad = s.keypad := by
  simp only [sampleChannel]; (repeat' split) <;> simp

@[simp] theorem sampleChannel_keyUnit (x : Sensor) (c : SensorCode) (s : State) :
    (sampleChannel x c s).keyUnit = s.keyUnit := by
  simp only [sampleChannel]; (repeat' split) <;> simp

@[simp] theorem sampleChannel_mgmt (x : Sensor) (c : SensorCode) (s : State) :
    (sampleChannel x c s).mgmt = s.mgmt := by
  simp only [sampleChannel]; (repeat' split) <;> simp

@[simp] theorem sampleChannel_tables (x : Sensor) (c : SensorCode) (s : State) :
    (sampleChannel x c s).tables = s.tables := by
  simp only [sampleChannel]; (repeat' split) <;> simp

@[simp] theorem sampleChannel_store (x : Sensor) (c : SensorCode) (s : State) :
    (sampleChannel x c s).store = s.store := by
  simp only [sampleChannel]; (repeat' split) <;> simp

/-! ### abandonLearn -/

@[simp] theorem abandonLearn_pending (s : State) : (abandonLearn s).pending = s.pending := by
  unfold abandonLearn; split <;> simp

@[simp] theorem abandonLearn_clock (s : State) : (abandonLearn s).clock = s.clock := by
  unfold abandonLearn; split <;> simp

@[simp] theorem abandonLearn_pool (s : State) : (abandonLearn s).pool = s.pool := by
  unfold abandonLearn; split <;> simp

@[simp] theorem abandonLearn_hostPort (s : State) : (abandonLearn s).hostPort = s.hostPort := by
  unfold abandonLearn; split <;> simp

@[simp] theorem abandonLearn_fieldPort (s : State) : (abandonLearn s).fieldPort = s.fieldPort := by
  unfold abandonLearn; split <;> simp

@[simp] theorem abandonLearn_noticeNo (s : State) : (abandonLearn s).noticeNo = s.noticeNo := by
  unfold abandonLearn; split <;> simp

@[simp] theorem abandonLearn_flags (s : State) : (abandonLearn s).flags = s.flags := by
  unfold abandonLearn; split <;> simp

@[simp] theorem abandonLearn_exchanges (s : State) : (abandonLearn s).exchanges = s.exchanges := by
  unfold abandonLearn; split <;> simp

@[simp] theorem abandonLearn_proxy (s : State) : (abandonLearn s).proxy = s.proxy := by
  unfold abandonLearn; split <;> simp

@[simp] theorem abandonLearn_keyList (s : State) : (abandonLearn s).keyList = s.keyList := by
  unfold abandonLearn; split <;> simp

@[simp] theorem abandonLearn_live (s : State) : (abandonLearn s).live = s.live := by
  unfold abandonLearn; split <;> simp

@[simp] theorem abandonLearn_log (s : State) : (abandonLearn s).log = s.log := by unfold abandonLearn; split <;> simp

@[simp] theorem abandonLearn_temp (s : State) : (abandonLearn s).temp = s.temp := by
  unfold abandonLearn; split <;> simp

@[simp] theorem abandonLearn_heat (s : State) : (abandonLearn s).heat = s.heat := by
  unfold abandonLearn; split <;> simp

@[simp] theorem abandonLearn_keypad (s : State) : (abandonLearn s).keypad = s.keypad := by
  unfold abandonLearn; split <;> simp

@[simp] theorem abandonLearn_keyUnit (s : State) : (abandonLearn s).keyUnit = s.keyUnit := by
  unfold abandonLearn; split <;> simp

@[simp] theorem abandonLearn_mgmt (s : State) : (abandonLearn s).mgmt = s.mgmt := by
  unfold abandonLearn; split <;> simp

@[simp] theorem abandonLearn_tables (s : State) : (abandonLearn s).tables = s.tables := by
  unfold abandonLearn; split <;> simp

@[simp] theorem abandonLearn_store (s : State) : (abandonLearn s).store = s.store := by
  unfold abandonLearn; split <;> simp

/-! ### abandonLearnOnLoss -/

@[simp] theorem abandonLearnOnLoss_pending (before : State) (s : State) :
    (abandonLearnOnLoss before s).pending = s.pending := by
  unfold abandonLearnOnLoss; split <;> simp

@[simp] theorem abandonLearnOnLoss_clock (before : State) (s : State) :
    (abandonLearnOnLoss before s).clock = s.clock := by
  unfold abandonLearnOnLoss; split <;> simp

@[simp] theorem abandonLearnOnLoss_pool (before : State) (s : State) :
    (abandonLearnOnLoss before s).pool = s.pool := by
  unfold abandonLearnOnLoss; split <;> simp

@[simp] theorem abandonLearnOnLoss_hostPort (before : State) (s : State) :
    (abandonLearnOnLoss before s).hostPort = s.hostPort := by
  unfold abandonLearnOnLoss; split <;> simp

@[simp] theorem abandonLearnOnLoss_fieldPort (before : State) (s : State) :
    (abandonLearnOnLoss before s).fieldPort = s.fieldPort := by
  unfold abandonLearnOnLoss; split <;> simp

@[simp] theorem abandonLearnOnLoss_noticeNo (before : State) (s : State) :
    (abandonLearnOnLoss before s).noticeNo = s.noticeNo := by
  unfold abandonLearnOnLoss; split <;> simp

@[simp] theorem abandonLearnOnLoss_flags (before : State) (s : State) :
    (abandonLearnOnLoss before s).flags = s.flags := by
  unfold abandonLearnOnLoss; split <;> simp

@[simp] theorem abandonLearnOnLoss_exchanges (before : State) (s : State) :
    (abandonLearnOnLoss before s).exchanges = s.exchanges := by
  unfold abandonLearnOnLoss; split <;> simp

@[simp] theorem abandonLearnOnLoss_proxy (before : State) (s : State) :
    (abandonLearnOnLoss before s).proxy = s.proxy := by
  unfold abandonLearnOnLoss; split <;> simp

@[simp] theorem abandonLearnOnLoss_keyList (before : State) (s : State) :
    (abandonLearnOnLoss before s).keyList = s.keyList := by
  unfold abandonLearnOnLoss; split <;> simp

@[simp] theorem abandonLearnOnLoss_live (before : State) (s : State) :
    (abandonLearnOnLoss before s).live = s.live := by
  unfold abandonLearnOnLoss; split <;> simp

@[simp] theorem abandonLearnOnLoss_log (before : State) (s : State) :
    (abandonLearnOnLoss before s).log = s.log := by
  unfold abandonLearnOnLoss; split <;> simp

@[simp] theorem abandonLearnOnLoss_temp (before : State) (s : State) :
    (abandonLearnOnLoss before s).temp = s.temp := by
  unfold abandonLearnOnLoss; split <;> simp

@[simp] theorem abandonLearnOnLoss_heat (before : State) (s : State) :
    (abandonLearnOnLoss before s).heat = s.heat := by
  unfold abandonLearnOnLoss; split <;> simp

@[simp] theorem abandonLearnOnLoss_keypad (before : State) (s : State) :
    (abandonLearnOnLoss before s).keypad = s.keypad := by
  unfold abandonLearnOnLoss; split <;> simp

@[simp] theorem abandonLearnOnLoss_keyUnit (before : State) (s : State) :
    (abandonLearnOnLoss before s).keyUnit = s.keyUnit := by
  unfold abandonLearnOnLoss; split <;> simp

@[simp] theorem abandonLearnOnLoss_mgmt (before : State) (s : State) :
    (abandonLearnOnLoss before s).mgmt = s.mgmt := by
  unfold abandonLearnOnLoss; split <;> simp

@[simp] theorem abandonLearnOnLoss_tables (before : State) (s : State) :
    (abandonLearnOnLoss before s).tables = s.tables := by
  unfold abandonLearnOnLoss; split <;> simp

@[simp] theorem abandonLearnOnLoss_store (before : State) (s : State) :
    (abandonLearnOnLoss before s).store = s.store := by
  unfold abandonLearnOnLoss; split <;> simp

/-! ### sampleChannels -/

@[simp] theorem sampleChannels_pending (b g a : SensorCode) (s : State) :
    (sampleChannels b g a s).pending = s.pending := by
  simp only [sampleChannels]; (repeat' split) <;> simp

@[simp] theorem sampleChannels_clock (b g a : SensorCode) (s : State) :
    (sampleChannels b g a s).clock = s.clock := by
  simp only [sampleChannels]; (repeat' split) <;> simp

@[simp] theorem sampleChannels_fieldPort (b g a : SensorCode) (s : State) :
    (sampleChannels b g a s).fieldPort = s.fieldPort := by
  simp only [sampleChannels]; (repeat' split) <;> simp

@[simp] theorem sampleChannels_flags (b g a : SensorCode) (s : State) :
    (sampleChannels b g a s).flags = s.flags := by
  simp only [sampleChannels]; (repeat' split) <;> simp

@[simp] theorem sampleChannels_exchanges (b g a : SensorCode) (s : State) :
    (sampleChannels b g a s).exchanges = s.exchanges := by
  simp only [sampleChannels]; (repeat' split) <;> simp

@[simp] theorem sampleChannels_proxy (b g a : SensorCode) (s : State) :
    (sampleChannels b g a s).proxy = s.proxy := by
  simp only [sampleChannels]; (repeat' split) <;> simp

@[simp] theorem sampleChannels_keyList (b g a : SensorCode) (s : State) :
    (sampleChannels b g a s).keyList = s.keyList := by
  simp only [sampleChannels]; (repeat' split) <;> simp

@[simp] theorem sampleChannels_live (b g a : SensorCode) (s : State) : (sampleChannels b g a s).live = s.live := by
  simp only [sampleChannels]; (repeat' split) <;> simp

@[simp] theorem sampleChannels_log (b g a : SensorCode) (s : State) : (sampleChannels b g a s).log = s.log := by
  simp only [sampleChannels]; (repeat' split) <;> simp

@[simp] theorem sampleChannels_heat (b g a : SensorCode) (s : State) : (sampleChannels b g a s).heat = s.heat := by
  simp only [sampleChannels]; (repeat' split) <;> simp

@[simp] theorem sampleChannels_keypad (b g a : SensorCode) (s : State) :
    (sampleChannels b g a s).keypad = s.keypad := by
  simp only [sampleChannels]; (repeat' split) <;> simp

@[simp] theorem sampleChannels_keyUnit (b g a : SensorCode) (s : State) :
    (sampleChannels b g a s).keyUnit = s.keyUnit := by
  simp only [sampleChannels]; (repeat' split) <;> simp

@[simp] theorem sampleChannels_mgmt (b g a : SensorCode) (s : State) : (sampleChannels b g a s).mgmt = s.mgmt := by
  simp only [sampleChannels]; (repeat' split) <;> simp

@[simp] theorem sampleChannels_tables (b g a : SensorCode) (s : State) :
    (sampleChannels b g a s).tables = s.tables := by
  simp only [sampleChannels]; (repeat' split) <;> simp

@[simp] theorem sampleChannels_store (b g a : SensorCode) (s : State) :
    (sampleChannels b g a s).store = s.store := by
  simp only [sampleChannels]; (repeat' split) <;> simp

/-! ### evaluateReadiness -/

@[simp] theorem evaluateReadiness_pending (t : Instant) (s : State) :
    (evaluateReadiness t s).pending = s.pending := by
  simp only [evaluateReadiness, fallbackReadiness, measuredReadiness, startDwell]; (repeat' split) <;> simp

@[simp] theorem evaluateReadiness_clock (t : Instant) (s : State) : (evaluateReadiness t s).clock = s.clock := by
  simp only [evaluateReadiness, fallbackReadiness, measuredReadiness, startDwell]; (repeat' split) <;> simp

@[simp] theorem evaluateReadiness_pool (t : Instant) (s : State) : (evaluateReadiness t s).pool = s.pool := by
  simp only [evaluateReadiness, fallbackReadiness, measuredReadiness, startDwell]; (repeat' split) <;> simp

@[simp] theorem evaluateReadiness_hostPort (t : Instant) (s : State) :
    (evaluateReadiness t s).hostPort = s.hostPort := by
  simp only [evaluateReadiness, fallbackReadiness, measuredReadiness, startDwell]; (repeat' split) <;> simp

@[simp] theorem evaluateReadiness_fieldPort (t : Instant) (s : State) :
    (evaluateReadiness t s).fieldPort = s.fieldPort := by
  simp only [evaluateReadiness, fallbackReadiness, measuredReadiness, startDwell]; (repeat' split) <;> simp

@[simp] theorem evaluateReadiness_noticeNo (t : Instant) (s : State) :
    (evaluateReadiness t s).noticeNo = s.noticeNo := by
  simp only [evaluateReadiness, fallbackReadiness, measuredReadiness, startDwell]; (repeat' split) <;> simp

@[simp] theorem evaluateReadiness_flags (t : Instant) (s : State) : (evaluateReadiness t s).flags = s.flags := by
  simp only [evaluateReadiness, fallbackReadiness, measuredReadiness, startDwell]; (repeat' split) <;> simp

@[simp] theorem evaluateReadiness_exchanges (t : Instant) (s : State) :
    (evaluateReadiness t s).exchanges = s.exchanges := by
  simp only [evaluateReadiness, fallbackReadiness, measuredReadiness, startDwell]; (repeat' split) <;> simp

@[simp] theorem evaluateReadiness_proxy (t : Instant) (s : State) : (evaluateReadiness t s).proxy = s.proxy := by
  simp only [evaluateReadiness, fallbackReadiness, measuredReadiness, startDwell]; (repeat' split) <;> simp

@[simp] theorem evaluateReadiness_keyList (t : Instant) (s : State) :
    (evaluateReadiness t s).keyList = s.keyList := by
  simp only [evaluateReadiness, fallbackReadiness, measuredReadiness, startDwell]; (repeat' split) <;> simp

@[simp] theorem evaluateReadiness_live (t : Instant) (s : State) : (evaluateReadiness t s).live = s.live := by
  simp only [evaluateReadiness, fallbackReadiness, measuredReadiness, startDwell]; (repeat' split) <;> simp

@[simp] theorem evaluateReadiness_log (t : Instant) (s : State) : (evaluateReadiness t s).log = s.log := by
  simp only [evaluateReadiness, fallbackReadiness, measuredReadiness, startDwell]; (repeat' split) <;> simp

@[simp] theorem evaluateReadiness_heat (t : Instant) (s : State) : (evaluateReadiness t s).heat = s.heat := by
  simp only [evaluateReadiness, fallbackReadiness, measuredReadiness, startDwell]; (repeat' split) <;> simp

@[simp] theorem evaluateReadiness_fan (t : Instant) (s : State) : (evaluateReadiness t s).fan = s.fan := by
  simp only [evaluateReadiness, fallbackReadiness, measuredReadiness, startDwell]; (repeat' split) <;> simp

@[simp] theorem evaluateReadiness_keypad (t : Instant) (s : State) :
    (evaluateReadiness t s).keypad = s.keypad := by
  simp only [evaluateReadiness, fallbackReadiness, measuredReadiness, startDwell]; (repeat' split) <;> simp

@[simp] theorem evaluateReadiness_keyUnit (t : Instant) (s : State) :
    (evaluateReadiness t s).keyUnit = s.keyUnit := by
  simp only [evaluateReadiness, fallbackReadiness, measuredReadiness, startDwell]; (repeat' split) <;> simp

@[simp] theorem evaluateReadiness_mgmt (t : Instant) (s : State) : (evaluateReadiness t s).mgmt = s.mgmt := by
  simp only [evaluateReadiness, fallbackReadiness, measuredReadiness, startDwell]; (repeat' split) <;> simp

@[simp] theorem evaluateReadiness_tables (t : Instant) (s : State) :
    (evaluateReadiness t s).tables = s.tables := by
  simp only [evaluateReadiness, fallbackReadiness, measuredReadiness, startDwell]; (repeat' split) <;> simp

@[simp] theorem evaluateReadiness_store (t : Instant) (s : State) : (evaluateReadiness t s).store = s.store := by
  simp only [evaluateReadiness, fallbackReadiness, measuredReadiness, startDwell]; (repeat' split) <;> simp

/-! ### evaluateHot -/

@[simp] theorem evaluateHot_pending (s : State) : (evaluateHot s).pending = s.pending := by
  unfold evaluateHot; (repeat' split) <;> simp

@[simp] theorem evaluateHot_clock (s : State) : (evaluateHot s).clock = s.clock := by
  unfold evaluateHot; (repeat' split) <;> simp

@[simp] theorem evaluateHot_pool (s : State) : (evaluateHot s).pool = s.pool := by
  unfold evaluateHot; (repeat' split) <;> simp

@[simp] theorem evaluateHot_hostPort (s : State) : (evaluateHot s).hostPort = s.hostPort := by
  unfold evaluateHot; (repeat' split) <;> simp

@[simp] theorem evaluateHot_fieldPort (s : State) : (evaluateHot s).fieldPort = s.fieldPort := by
  unfold evaluateHot; (repeat' split) <;> simp

@[simp] theorem evaluateHot_noticeNo (s : State) : (evaluateHot s).noticeNo = s.noticeNo := by
  unfold evaluateHot; (repeat' split) <;> simp

@[simp] theorem evaluateHot_flags (s : State) : (evaluateHot s).flags = s.flags := by
  unfold evaluateHot; (repeat' split) <;> simp

@[simp] theorem evaluateHot_exchanges (s : State) : (evaluateHot s).exchanges = s.exchanges := by
  unfold evaluateHot; (repeat' split) <;> simp

@[simp] theorem evaluateHot_proxy (s : State) : (evaluateHot s).proxy = s.proxy := by
  unfold evaluateHot; (repeat' split) <;> simp

@[simp] theorem evaluateHot_keyList (s : State) : (evaluateHot s).keyList = s.keyList := by
  unfold evaluateHot; (repeat' split) <;> simp

@[simp] theorem evaluateHot_live (s : State) : (evaluateHot s).live = s.live := by
  unfold evaluateHot; (repeat' split) <;> simp

@[simp] theorem evaluateHot_log (s : State) : (evaluateHot s).log = s.log := by
  unfold evaluateHot; (repeat' split) <;> simp

@[simp] theorem evaluateHot_heat (s : State) : (evaluateHot s).heat = s.heat := by
  unfold evaluateHot; (repeat' split) <;> simp

@[simp] theorem evaluateHot_fan (s : State) : (evaluateHot s).fan = s.fan := by
  unfold evaluateHot; (repeat' split) <;> simp

@[simp] theorem evaluateHot_keypad (s : State) : (evaluateHot s).keypad = s.keypad := by
  unfold evaluateHot; (repeat' split) <;> simp

@[simp] theorem evaluateHot_keyUnit (s : State) : (evaluateHot s).keyUnit = s.keyUnit := by
  unfold evaluateHot; (repeat' split) <;> simp

@[simp] theorem evaluateHot_mgmt (s : State) : (evaluateHot s).mgmt = s.mgmt := by
  unfold evaluateHot; (repeat' split) <;> simp

@[simp] theorem evaluateHot_tables (s : State) : (evaluateHot s).tables = s.tables := by
  unfold evaluateHot; (repeat' split) <;> simp

@[simp] theorem evaluateHot_store (s : State) : (evaluateHot s).store = s.store := by
  unfold evaluateHot; (repeat' split) <;> simp

/-! ### handOverThermal -/

@[simp] theorem handOverThermal_pending (before : State) (t : Instant) (s : State) :
    (handOverThermal before t s).pending = s.pending := by
  simp only [handOverThermal]; (repeat' split) <;> simp

@[simp] theorem handOverThermal_clock (before : State) (t : Instant) (s : State) :
    (handOverThermal before t s).clock = s.clock := by
  simp only [handOverThermal]; (repeat' split) <;> simp

@[simp] theorem handOverThermal_pool (before : State) (t : Instant) (s : State) :
    (handOverThermal before t s).pool = s.pool := by
  simp only [handOverThermal]; (repeat' split) <;> simp

@[simp] theorem handOverThermal_hostPort (before : State) (t : Instant) (s : State) :
    (handOverThermal before t s).hostPort = s.hostPort := by
  simp only [handOverThermal]; (repeat' split) <;> simp

@[simp] theorem handOverThermal_noticeNo (before : State) (t : Instant) (s : State) :
    (handOverThermal before t s).noticeNo = s.noticeNo := by
  simp only [handOverThermal]; (repeat' split) <;> simp

@[simp] theorem handOverThermal_flags (before : State) (t : Instant) (s : State) :
    (handOverThermal before t s).flags = s.flags := by
  simp only [handOverThermal]; (repeat' split) <;> simp

@[simp] theorem handOverThermal_fan (before : State) (t : Instant) (s : State) :
    (handOverThermal before t s).fan = s.fan := by
  simp only [handOverThermal]; (repeat' split) <;> simp

@[simp] theorem handOverThermal_keypad (before : State) (t : Instant) (s : State) :
    (handOverThermal before t s).keypad = s.keypad := by
  simp only [handOverThermal]; (repeat' split) <;> simp

@[simp] theorem handOverThermal_mgmt (before : State) (t : Instant) (s : State) :
    (handOverThermal before t s).mgmt = s.mgmt := by
  simp only [handOverThermal]; (repeat' split) <;> simp

@[simp] theorem handOverThermal_tables (before : State) (t : Instant) (s : State) :
    (handOverThermal before t s).tables = s.tables := by
  simp only [handOverThermal]; (repeat' split) <;> simp

@[simp] theorem handOverThermal_store (before : State) (t : Instant) (s : State) :
    (handOverThermal before t s).store = s.store := by
  simp only [handOverThermal]; (repeat' split) <;> simp

/-! ### unblock -/

@[simp] theorem unblock_pending (c : Heater) (s : State) : (unblock c s).pending = s.pending := by
  unfold unblock; split <;> simp

@[simp] theorem unblock_clock (c : Heater) (s : State) : (unblock c s).clock = s.clock := by
  unfold unblock; split <;> simp

@[simp] theorem unblock_pool (c : Heater) (s : State) : (unblock c s).pool = s.pool := by
  unfold unblock; split <;> simp

@[simp] theorem unblock_hostPort (c : Heater) (s : State) : (unblock c s).hostPort = s.hostPort := by
  unfold unblock; split <;> simp

@[simp] theorem unblock_fieldPort (c : Heater) (s : State) : (unblock c s).fieldPort = s.fieldPort := by
  unfold unblock; split <;> simp

@[simp] theorem unblock_noticeNo (c : Heater) (s : State) : (unblock c s).noticeNo = s.noticeNo := by
  unfold unblock; split <;> simp

@[simp] theorem unblock_flags (c : Heater) (s : State) : (unblock c s).flags = s.flags := by
  unfold unblock; split <;> simp

@[simp] theorem unblock_exchanges (c : Heater) (s : State) : (unblock c s).exchanges = s.exchanges := by
  unfold unblock; split <;> simp

@[simp] theorem unblock_proxy (c : Heater) (s : State) : (unblock c s).proxy = s.proxy := by
  unfold unblock; split <;> simp

@[simp] theorem unblock_keyList (c : Heater) (s : State) : (unblock c s).keyList = s.keyList := by
  unfold unblock; split <;> simp

@[simp] theorem unblock_live (c : Heater) (s : State) : (unblock c s).live = s.live := by
  unfold unblock; split <;> simp

@[simp] theorem unblock_log (c : Heater) (s : State) : (unblock c s).log = s.log := by unfold unblock; split <;> simp

@[simp] theorem unblock_temp (c : Heater) (s : State) : (unblock c s).temp = s.temp := by
  unfold unblock; split <;> simp

@[simp] theorem unblock_fan (c : Heater) (s : State) : (unblock c s).fan = s.fan := by unfold unblock; split <;> simp

@[simp] theorem unblock_keypad (c : Heater) (s : State) : (unblock c s).keypad = s.keypad := by
  unfold unblock; split <;> simp

@[simp] theorem unblock_keyUnit (c : Heater) (s : State) : (unblock c s).keyUnit = s.keyUnit := by
  unfold unblock; split <;> simp

@[simp] theorem unblock_mgmt (c : Heater) (s : State) : (unblock c s).mgmt = s.mgmt := by
  unfold unblock; split <;> simp

@[simp] theorem unblock_tables (c : Heater) (s : State) : (unblock c s).tables = s.tables := by
  unfold unblock; split <;> simp

@[simp] theorem unblock_store (c : Heater) (s : State) : (unblock c s).store = s.store := by
  unfold unblock; split <;> simp

@[simp] theorem unblock_counters (c : Heater) (s : State) : (unblock c s).counters = s.counters := by
  unfold unblock; split <;> simp

/-! ### heaterBoundary -/

@[simp] theorem heaterBoundary_pending (s : State) : (heaterBoundary s).pending = s.pending := by
  simp [heaterBoundary]

@[simp] theorem heaterBoundary_clock (s : State) : (heaterBoundary s).clock = s.clock := by simp [heaterBoundary]

@[simp] theorem heaterBoundary_pool (s : State) : (heaterBoundary s).pool = s.pool := by simp [heaterBoundary]

@[simp] theorem heaterBoundary_hostPort (s : State) : (heaterBoundary s).hostPort = s.hostPort := by
  simp [heaterBoundary]

@[simp] theorem heaterBoundary_fieldPort (s : State) : (heaterBoundary s).fieldPort = s.fieldPort := by
  simp [heaterBoundary]

@[simp] theorem heaterBoundary_noticeNo (s : State) : (heaterBoundary s).noticeNo = s.noticeNo := by
  simp [heaterBoundary]

@[simp] theorem heaterBoundary_flags (s : State) : (heaterBoundary s).flags = s.flags := by simp [heaterBoundary]

@[simp] theorem heaterBoundary_exchanges (s : State) : (heaterBoundary s).exchanges = s.exchanges := by
  simp [heaterBoundary]

@[simp] theorem heaterBoundary_proxy (s : State) : (heaterBoundary s).proxy = s.proxy := by simp [heaterBoundary]

@[simp] theorem heaterBoundary_keyList (s : State) : (heaterBoundary s).keyList = s.keyList := by
  simp [heaterBoundary]

@[simp] theorem heaterBoundary_live (s : State) : (heaterBoundary s).live = s.live := by simp [heaterBoundary]

@[simp] theorem heaterBoundary_log (s : State) : (heaterBoundary s).log = s.log := by simp [heaterBoundary]

@[simp] theorem heaterBoundary_temp (s : State) : (heaterBoundary s).temp = s.temp := by simp [heaterBoundary]

@[simp] theorem heaterBoundary_fan (s : State) : (heaterBoundary s).fan = s.fan := by simp [heaterBoundary]

@[simp] theorem heaterBoundary_keypad (s : State) : (heaterBoundary s).keypad = s.keypad := by simp [heaterBoundary]

@[simp] theorem heaterBoundary_keyUnit (s : State) : (heaterBoundary s).keyUnit = s.keyUnit := by
  simp [heaterBoundary]

@[simp] theorem heaterBoundary_mgmt (s : State) : (heaterBoundary s).mgmt = s.mgmt := by simp [heaterBoundary]

@[simp] theorem heaterBoundary_tables (s : State) : (heaterBoundary s).tables = s.tables := by simp [heaterBoundary]

@[simp] theorem heaterBoundary_store (s : State) : (heaterBoundary s).store = s.store := by simp [heaterBoundary]

@[simp] theorem heaterBoundary_counters (s : State) : (heaterBoundary s).counters = s.counters := by
  simp [heaterBoundary]

/-! ### fanNotice -/

@[simp] theorem fanNotice_pending (event : Nat) (s : State) : (fanNotice event s).pending = s.pending := by
  simp [fanNotice]

@[simp] theorem fanNotice_clock (event : Nat) (s : State) : (fanNotice event s).clock = s.clock := by simp [fanNotice]

@[simp] theorem fanNotice_fieldPort (event : Nat) (s : State) : (fanNotice event s).fieldPort = s.fieldPort := by
  simp [fanNotice]

@[simp] theorem fanNotice_flags (event : Nat) (s : State) : (fanNotice event s).flags = s.flags := by simp [fanNotice]

@[simp] theorem fanNotice_exchanges (event : Nat) (s : State) : (fanNotice event s).exchanges = s.exchanges := by
  simp [fanNotice]

@[simp] theorem fanNotice_proxy (event : Nat) (s : State) : (fanNotice event s).proxy = s.proxy := by simp [fanNotice]

@[simp] theorem fanNotice_keyList (event : Nat) (s : State) : (fanNotice event s).keyList = s.keyList := by
  simp [fanNotice]

@[simp] theorem fanNotice_live (event : Nat) (s : State) : (fanNotice event s).live = s.live := by simp [fanNotice]

@[simp] theorem fanNotice_log (event : Nat) (s : State) : (fanNotice event s).log = s.log := by simp [fanNotice]

@[simp] theorem fanNotice_temp (event : Nat) (s : State) : (fanNotice event s).temp = s.temp := by simp [fanNotice]

@[simp] theorem fanNotice_heat (event : Nat) (s : State) : (fanNotice event s).heat = s.heat := by simp [fanNotice]

@[simp] theorem fanNotice_fan (event : Nat) (s : State) : (fanNotice event s).fan = s.fan := by simp [fanNotice]

@[simp] theorem fanNotice_keypad (event : Nat) (s : State) : (fanNotice event s).keypad = s.keypad := by
  simp [fanNotice]

@[simp] theorem fanNotice_keyUnit (event : Nat) (s : State) : (fanNotice event s).keyUnit = s.keyUnit := by
  simp [fanNotice]

@[simp] theorem fanNotice_mgmt (event : Nat) (s : State) : (fanNotice event s).mgmt = s.mgmt := by simp [fanNotice]

@[simp] theorem fanNotice_tables (event : Nat) (s : State) : (fanNotice event s).tables = s.tables := by
  simp [fanNotice]

@[simp] theorem fanNotice_store (event : Nat) (s : State) : (fanNotice event s).store = s.store := by simp [fanNotice]

/-! ### judgeFan -/

@[simp] theorem judgeFan_pending (wasOff : Bool) (s : State) : (judgeFan wasOff s).pending = s.pending := by
  simp only [judgeFan, judgeRunning, judgeKicking, judgeFailed, startKick, failFan, recoverFan]
  (repeat' split) <;> simp

@[simp] theorem judgeFan_clock (wasOff : Bool) (s : State) : (judgeFan wasOff s).clock = s.clock := by
  simp only [judgeFan, judgeRunning, judgeKicking, judgeFailed, startKick, failFan, recoverFan]
  (repeat' split) <;> simp

@[simp] theorem judgeFan_fieldPort (wasOff : Bool) (s : State) : (judgeFan wasOff s).fieldPort = s.fieldPort := by
  simp only [judgeFan, judgeRunning, judgeKicking, judgeFailed, startKick, failFan, recoverFan]
  (repeat' split) <;> simp

@[simp] theorem judgeFan_flags (wasOff : Bool) (s : State) : (judgeFan wasOff s).flags = s.flags := by
  simp only [judgeFan, judgeRunning, judgeKicking, judgeFailed, startKick, failFan, recoverFan]
  (repeat' split) <;> simp

@[simp] theorem judgeFan_exchanges (wasOff : Bool) (s : State) : (judgeFan wasOff s).exchanges = s.exchanges := by
  simp only [judgeFan, judgeRunning, judgeKicking, judgeFailed, startKick, failFan, recoverFan]
  (repeat' split) <;> simp

@[simp] theorem judgeFan_proxy (wasOff : Bool) (s : State) : (judgeFan wasOff s).proxy = s.proxy := by
  simp only [judgeFan, judgeRunning, judgeKicking, judgeFailed, startKick, failFan, recoverFan]
  (repeat' split) <;> simp

@[simp] theorem judgeFan_keyList (wasOff : Bool) (s : State) : (judgeFan wasOff s).keyList = s.keyList := by
  simp only [judgeFan, judgeRunning, judgeKicking, judgeFailed, startKick, failFan, recoverFan]
  (repeat' split) <;> simp

@[simp] theorem judgeFan_live (wasOff : Bool) (s : State) : (judgeFan wasOff s).live = s.live := by
  simp only [judgeFan, judgeRunning, judgeKicking, judgeFailed, startKick, failFan, recoverFan]
  (repeat' split) <;> simp

@[simp] theorem judgeFan_log (wasOff : Bool) (s : State) : (judgeFan wasOff s).log = s.log := by
  simp only [judgeFan, judgeRunning, judgeKicking, judgeFailed, startKick, failFan, recoverFan]
  (repeat' split) <;> simp

@[simp] theorem judgeFan_temp (wasOff : Bool) (s : State) : (judgeFan wasOff s).temp = s.temp := by
  simp only [judgeFan, judgeRunning, judgeKicking, judgeFailed, startKick, failFan, recoverFan]
  (repeat' split) <;> simp

@[simp] theorem judgeFan_heat (wasOff : Bool) (s : State) : (judgeFan wasOff s).heat = s.heat := by
  simp only [judgeFan, judgeRunning, judgeKicking, judgeFailed, startKick, failFan, recoverFan]
  (repeat' split) <;> simp

@[simp] theorem judgeFan_keypad (wasOff : Bool) (s : State) : (judgeFan wasOff s).keypad = s.keypad := by
  simp only [judgeFan, judgeRunning, judgeKicking, judgeFailed, startKick, failFan, recoverFan]
  (repeat' split) <;> simp

@[simp] theorem judgeFan_keyUnit (wasOff : Bool) (s : State) : (judgeFan wasOff s).keyUnit = s.keyUnit := by
  simp only [judgeFan, judgeRunning, judgeKicking, judgeFailed, startKick, failFan, recoverFan]
  (repeat' split) <;> simp

@[simp] theorem judgeFan_mgmt (wasOff : Bool) (s : State) : (judgeFan wasOff s).mgmt = s.mgmt := by
  simp only [judgeFan, judgeRunning, judgeKicking, judgeFailed, startKick, failFan, recoverFan]
  (repeat' split) <;> simp

@[simp] theorem judgeFan_tables (wasOff : Bool) (s : State) : (judgeFan wasOff s).tables = s.tables := by
  simp only [judgeFan, judgeRunning, judgeKicking, judgeFailed, startKick, failFan, recoverFan]
  (repeat' split) <;> simp

@[simp] theorem judgeFan_store (wasOff : Bool) (s : State) : (judgeFan wasOff s).store = s.store := by
  simp only [judgeFan, judgeRunning, judgeKicking, judgeFailed, startKick, failFan, recoverFan]
  (repeat' split) <;> simp

/-! ### refreshClog -/

@[simp] theorem refreshClog_pending (s : State) : (refreshClog s).pending = s.pending := by
  simp only [refreshClog, clogRefreshed]; (repeat' split) <;> simp

@[simp] theorem refreshClog_clock (s : State) : (refreshClog s).clock = s.clock := by
  simp only [refreshClog, clogRefreshed]; (repeat' split) <;> simp

@[simp] theorem refreshClog_fieldPort (s : State) : (refreshClog s).fieldPort = s.fieldPort := by
  simp only [refreshClog, clogRefreshed]; (repeat' split) <;> simp

@[simp] theorem refreshClog_flags (s : State) : (refreshClog s).flags = s.flags := by
  simp only [refreshClog, clogRefreshed]; (repeat' split) <;> simp

@[simp] theorem refreshClog_exchanges (s : State) : (refreshClog s).exchanges = s.exchanges := by
  simp only [refreshClog, clogRefreshed]; (repeat' split) <;> simp

@[simp] theorem refreshClog_proxy (s : State) : (refreshClog s).proxy = s.proxy := by
  simp only [refreshClog, clogRefreshed]; (repeat' split) <;> simp

@[simp] theorem refreshClog_keyList (s : State) : (refreshClog s).keyList = s.keyList := by
  simp only [refreshClog, clogRefreshed]; (repeat' split) <;> simp

@[simp] theorem refreshClog_live (s : State) : (refreshClog s).live = s.live := by
  simp only [refreshClog, clogRefreshed]; (repeat' split) <;> simp

@[simp] theorem refreshClog_log (s : State) : (refreshClog s).log = s.log := by
  simp only [refreshClog, clogRefreshed]; (repeat' split) <;> simp

@[simp] theorem refreshClog_temp (s : State) : (refreshClog s).temp = s.temp := by
  simp only [refreshClog, clogRefreshed]; (repeat' split) <;> simp

@[simp] theorem refreshClog_heat (s : State) : (refreshClog s).heat = s.heat := by
  simp only [refreshClog, clogRefreshed]; (repeat' split) <;> simp

@[simp] theorem refreshClog_keypad (s : State) : (refreshClog s).keypad = s.keypad := by
  simp only [refreshClog, clogRefreshed]; (repeat' split) <;> simp

@[simp] theorem refreshClog_keyUnit (s : State) : (refreshClog s).keyUnit = s.keyUnit := by
  simp only [refreshClog, clogRefreshed]; (repeat' split) <;> simp

@[simp] theorem refreshClog_mgmt (s : State) : (refreshClog s).mgmt = s.mgmt := by
  simp only [refreshClog, clogRefreshed]; (repeat' split) <;> simp

@[simp] theorem refreshClog_tables (s : State) : (refreshClog s).tables = s.tables := by
  simp only [refreshClog, clogRefreshed]; (repeat' split) <;> simp

@[simp] theorem refreshClog_store (s : State) : (refreshClog s).store = s.store := by
  simp only [refreshClog, clogRefreshed]; (repeat' split) <;> simp

/-! ### closeSpeedWindow -/

@[simp] theorem closeSpeedWindow_pending (s : State) : (closeSpeedWindow s).pending = s.pending := rfl

@[simp] theorem closeSpeedWindow_clock (s : State) : (closeSpeedWindow s).clock = s.clock := rfl

@[simp] theorem closeSpeedWindow_pool (s : State) : (closeSpeedWindow s).pool = s.pool := rfl

@[simp] theorem closeSpeedWindow_hostPort (s : State) : (closeSpeedWindow s).hostPort = s.hostPort := rfl

@[simp] theorem closeSpeedWindow_fieldPort (s : State) : (closeSpeedWindow s).fieldPort = s.fieldPort := rfl

@[simp] theorem closeSpeedWindow_noticeNo (s : State) : (closeSpeedWindow s).noticeNo = s.noticeNo := rfl

@[simp] theorem closeSpeedWindow_flags (s : State) : (closeSpeedWindow s).flags = s.flags := rfl

@[simp] theorem closeSpeedWindow_exchanges (s : State) : (closeSpeedWindow s).exchanges = s.exchanges := rfl

@[simp] theorem closeSpeedWindow_proxy (s : State) : (closeSpeedWindow s).proxy = s.proxy := rfl

@[simp] theorem closeSpeedWindow_keyList (s : State) : (closeSpeedWindow s).keyList = s.keyList := rfl

@[simp] theorem closeSpeedWindow_live (s : State) : (closeSpeedWindow s).live = s.live := rfl

@[simp] theorem closeSpeedWindow_log (s : State) : (closeSpeedWindow s).log = s.log := rfl

@[simp] theorem closeSpeedWindow_temp (s : State) : (closeSpeedWindow s).temp = s.temp := rfl

@[simp] theorem closeSpeedWindow_heat (s : State) : (closeSpeedWindow s).heat = s.heat := rfl

@[simp] theorem closeSpeedWindow_keypad (s : State) : (closeSpeedWindow s).keypad = s.keypad := rfl

@[simp] theorem closeSpeedWindow_keyUnit (s : State) : (closeSpeedWindow s).keyUnit = s.keyUnit := rfl

@[simp] theorem closeSpeedWindow_mgmt (s : State) : (closeSpeedWindow s).mgmt = s.mgmt := rfl

@[simp] theorem closeSpeedWindow_tables (s : State) : (closeSpeedWindow s).tables = s.tables := rfl

@[simp] theorem closeSpeedWindow_store (s : State) : (closeSpeedWindow s).store = s.store := rfl

@[simp] theorem closeSpeedWindow_counters (s : State) : (closeSpeedWindow s).counters = s.counters := rfl

/-! ### recomputeDuty -/

@[simp] theorem recomputeDuty_pending (s : State) : (recomputeDuty s).pending = s.pending := rfl

@[simp] theorem recomputeDuty_clock (s : State) : (recomputeDuty s).clock = s.clock := rfl

@[simp] theorem recomputeDuty_pool (s : State) : (recomputeDuty s).pool = s.pool := rfl

@[simp] theorem recomputeDuty_hostPort (s : State) : (recomputeDuty s).hostPort = s.hostPort := rfl

@[simp] theorem recomputeDuty_fieldPort (s : State) : (recomputeDuty s).fieldPort = s.fieldPort := rfl

@[simp] theorem recomputeDuty_noticeNo (s : State) : (recomputeDuty s).noticeNo = s.noticeNo := rfl

@[simp] theorem recomputeDuty_flags (s : State) : (recomputeDuty s).flags = s.flags := rfl

@[simp] theorem recomputeDuty_exchanges (s : State) : (recomputeDuty s).exchanges = s.exchanges := rfl

@[simp] theorem recomputeDuty_proxy (s : State) : (recomputeDuty s).proxy = s.proxy := rfl

@[simp] theorem recomputeDuty_keyList (s : State) : (recomputeDuty s).keyList = s.keyList := rfl

@[simp] theorem recomputeDuty_live (s : State) : (recomputeDuty s).live = s.live := rfl

@[simp] theorem recomputeDuty_log (s : State) : (recomputeDuty s).log = s.log := rfl

@[simp] theorem recomputeDuty_temp (s : State) : (recomputeDuty s).temp = s.temp := rfl

@[simp] theorem recomputeDuty_heat (s : State) : (recomputeDuty s).heat = s.heat := rfl

@[simp] theorem recomputeDuty_keypad (s : State) : (recomputeDuty s).keypad = s.keypad := rfl

@[simp] theorem recomputeDuty_keyUnit (s : State) : (recomputeDuty s).keyUnit = s.keyUnit := rfl

@[simp] theorem recomputeDuty_mgmt (s : State) : (recomputeDuty s).mgmt = s.mgmt := rfl

@[simp] theorem recomputeDuty_tables (s : State) : (recomputeDuty s).tables = s.tables := rfl

@[simp] theorem recomputeDuty_store (s : State) : (recomputeDuty s).store = s.store := rfl

@[simp] theorem recomputeDuty_counters (s : State) : (recomputeDuty s).counters = s.counters := rfl

/-! ### moveAirflowClock -/

@[simp] theorem moveAirflowClock_pending (s : State) : (moveAirflowClock s).pending = s.pending := by
  simp only [moveAirflowClock]; (repeat' split) <;> simp

@[simp] theorem moveAirflowClock_clock (s : State) : (moveAirflowClock s).clock = s.clock := by
  simp only [moveAirflowClock]; (repeat' split) <;> simp

@[simp] theorem moveAirflowClock_fieldPort (s : State) : (moveAirflowClock s).fieldPort = s.fieldPort := by
  simp only [moveAirflowClock]; (repeat' split) <;> simp

@[simp] theorem moveAirflowClock_flags (s : State) : (moveAirflowClock s).flags = s.flags := by
  simp only [moveAirflowClock]; (repeat' split) <;> simp

@[simp] theorem moveAirflowClock_exchanges (s : State) : (moveAirflowClock s).exchanges = s.exchanges := by
  simp only [moveAirflowClock]; (repeat' split) <;> simp

@[simp] theorem moveAirflowClock_proxy (s : State) : (moveAirflowClock s).proxy = s.proxy := by
  simp only [moveAirflowClock]; (repeat' split) <;> simp

@[simp] theorem moveAirflowClock_keyList (s : State) : (moveAirflowClock s).keyList = s.keyList := by
  simp only [moveAirflowClock]; (repeat' split) <;> simp

@[simp] theorem moveAirflowClock_live (s : State) : (moveAirflowClock s).live = s.live := by
  simp only [moveAirflowClock]; (repeat' split) <;> simp

@[simp] theorem moveAirflowClock_log (s : State) : (moveAirflowClock s).log = s.log := by
  simp only [moveAirflowClock]; (repeat' split) <;> simp

@[simp] theorem moveAirflowClock_temp (s : State) : (moveAirflowClock s).temp = s.temp := by
  simp only [moveAirflowClock]; (repeat' split) <;> simp

@[simp] theorem moveAirflowClock_heat (s : State) : (moveAirflowClock s).heat = s.heat := by
  simp only [moveAirflowClock]; (repeat' split) <;> simp

@[simp] theorem moveAirflowClock_keypad (s : State) : (moveAirflowClock s).keypad = s.keypad := by
  simp only [moveAirflowClock]; (repeat' split) <;> simp

@[simp] theorem moveAirflowClock_keyUnit (s : State) : (moveAirflowClock s).keyUnit = s.keyUnit := by
  simp only [moveAirflowClock]; (repeat' split) <;> simp

@[simp] theorem moveAirflowClock_mgmt (s : State) : (moveAirflowClock s).mgmt = s.mgmt := by
  simp only [moveAirflowClock]; (repeat' split) <;> simp

@[simp] theorem moveAirflowClock_tables (s : State) : (moveAirflowClock s).tables = s.tables := by
  simp only [moveAirflowClock]; (repeat' split) <;> simp

@[simp] theorem moveAirflowClock_store (s : State) : (moveAirflowClock s).store = s.store := by
  simp only [moveAirflowClock]; (repeat' split) <;> simp

/-! ### fanBoundary -/

@[simp] theorem fanBoundary_pending (s : State) : (fanBoundary s).pending = s.pending := by simp [fanBoundary]

@[simp] theorem fanBoundary_clock (s : State) : (fanBoundary s).clock = s.clock := by simp [fanBoundary]

@[simp] theorem fanBoundary_fieldPort (s : State) : (fanBoundary s).fieldPort = s.fieldPort := by simp [fanBoundary]

@[simp] theorem fanBoundary_flags (s : State) : (fanBoundary s).flags = s.flags := by simp [fanBoundary]

@[simp] theorem fanBoundary_exchanges (s : State) : (fanBoundary s).exchanges = s.exchanges := by simp [fanBoundary]

@[simp] theorem fanBoundary_proxy (s : State) : (fanBoundary s).proxy = s.proxy := by simp [fanBoundary]

@[simp] theorem fanBoundary_keyList (s : State) : (fanBoundary s).keyList = s.keyList := by simp [fanBoundary]

@[simp] theorem fanBoundary_live (s : State) : (fanBoundary s).live = s.live := by simp [fanBoundary]

@[simp] theorem fanBoundary_log (s : State) : (fanBoundary s).log = s.log := by simp [fanBoundary]

@[simp] theorem fanBoundary_temp (s : State) : (fanBoundary s).temp = s.temp := by simp [fanBoundary]

@[simp] theorem fanBoundary_heat (s : State) : (fanBoundary s).heat = s.heat := by simp [fanBoundary]

@[simp] theorem fanBoundary_keypad (s : State) : (fanBoundary s).keypad = s.keypad := by simp [fanBoundary]

@[simp] theorem fanBoundary_keyUnit (s : State) : (fanBoundary s).keyUnit = s.keyUnit := by simp [fanBoundary]

@[simp] theorem fanBoundary_mgmt (s : State) : (fanBoundary s).mgmt = s.mgmt := by simp [fanBoundary]

@[simp] theorem fanBoundary_tables (s : State) : (fanBoundary s).tables = s.tables := by simp [fanBoundary]

@[simp] theorem fanBoundary_store (s : State) : (fanBoundary s).store = s.store := by simp [fanBoundary]

/-! ### reportHappening -/

@[simp] theorem reportHappening_pending (p : KeyPos) (h : KeyHappening) (s : State) :
    (reportHappening p h s).pending = s.pending := by
  unfold reportHappening keypadNotice; split <;> simp

@[simp] theorem reportHappening_clock (p : KeyPos) (h : KeyHappening) (s : State) :
    (reportHappening p h s).clock = s.clock := by
  unfold reportHappening keypadNotice; split <;> simp

@[simp] theorem reportHappening_fieldPort (p : KeyPos) (h : KeyHappening) (s : State) :
    (reportHappening p h s).fieldPort = s.fieldPort := by
  unfold reportHappening keypadNotice; split <;> simp

@[simp] theorem reportHappening_flags (p : KeyPos) (h : KeyHappening) (s : State) :
    (reportHappening p h s).flags = s.flags := by
  unfold reportHappening keypadNotice; split <;> simp

@[simp] theorem reportHappening_exchanges (p : KeyPos) (h : KeyHappening) (s : State) :
    (reportHappening p h s).exchanges = s.exchanges := by
  unfold reportHappening keypadNotice; split <;> simp

@[simp] theorem reportHappening_proxy (p : KeyPos) (h : KeyHappening) (s : State) :
    (reportHappening p h s).proxy = s.proxy := by
  unfold reportHappening keypadNotice; split <;> simp

@[simp] theorem reportHappening_keyList (p : KeyPos) (h : KeyHappening) (s : State) :
    (reportHappening p h s).keyList = s.keyList := by
  unfold reportHappening keypadNotice; split <;> simp

@[simp] theorem reportHappening_live (p : KeyPos) (h : KeyHappening) (s : State) :
    (reportHappening p h s).live = s.live := by
  unfold reportHappening keypadNotice; split <;> simp

@[simp] theorem reportHappening_log (p : KeyPos) (h : KeyHappening) (s : State) :
    (reportHappening p h s).log = s.log := by
  unfold reportHappening keypadNotice; split <;> simp

@[simp] theorem reportHappening_temp (p : KeyPos) (h : KeyHappening) (s : State) :
    (reportHappening p h s).temp = s.temp := by
  unfold reportHappening keypadNotice; split <;> simp

@[simp] theorem reportHappening_heat (p : KeyPos) (h : KeyHappening) (s : State) :
    (reportHappening p h s).heat = s.heat := by
  unfold reportHappening keypadNotice; split <;> simp

@[simp] theorem reportHappening_fan (p : KeyPos) (h : KeyHappening) (s : State) :
    (reportHappening p h s).fan = s.fan := by
  unfold reportHappening keypadNotice; split <;> simp

@[simp] theorem reportHappening_keypad (p : KeyPos) (h : KeyHappening) (s : State) :
    (reportHappening p h s).keypad = s.keypad := by
  unfold reportHappening keypadNotice; split <;> simp

@[simp] theorem reportHappening_keyUnit (p : KeyPos) (h : KeyHappening) (s : State) :
    (reportHappening p h s).keyUnit = s.keyUnit := by
  unfold reportHappening keypadNotice; split <;> simp

@[simp] theorem reportHappening_mgmt (p : KeyPos) (h : KeyHappening) (s : State) :
    (reportHappening p h s).mgmt = s.mgmt := by
  unfold reportHappening keypadNotice; split <;> simp

@[simp] theorem reportHappening_tables (p : KeyPos) (h : KeyHappening) (s : State) :
    (reportHappening p h s).tables = s.tables := by
  unfold reportHappening keypadNotice; split <;> simp

@[simp] theorem reportHappening_store (p : KeyPos) (h : KeyHappening) (s : State) :
    (reportHappening p h s).store = s.store := by
  unfold reportHappening keypadNotice; split <;> simp

/-! ### handOverOutcomes -/

@[simp] theorem handOverOutcomes_pending (os : List KeyOutcome) (t : Instant) (s : State) :
    (handOverOutcomes os t s).pending = s.pending := by
  simp only [handOverOutcomes, composeKeyNotices_pending]
  exact foldl_keeps (fun s => s.pending) _ (fun s o => by simp) _ s

@[simp] theorem handOverOutcomes_clock (os : List KeyOutcome) (t : Instant) (s : State) :
    (handOverOutcomes os t s).clock = s.clock := by
  simp only [handOverOutcomes, composeKeyNotices_clock]
  exact foldl_keeps (fun s => s.clock) _ (fun s o => by simp) _ s

@[simp] theorem handOverOutcomes_fieldPort (os : List KeyOutcome) (t : Instant) (s : State) :
    (handOverOutcomes os t s).fieldPort = s.fieldPort := by
  simp only [handOverOutcomes, composeKeyNotices_fieldPort]
  exact foldl_keeps (fun s => s.fieldPort) _ (fun s o => by simp) _ s

@[simp] theorem handOverOutcomes_flags (os : List KeyOutcome) (t : Instant) (s : State) :
    (handOverOutcomes os t s).flags = s.flags := by
  simp only [handOverOutcomes, composeKeyNotices_flags]
  exact foldl_keeps (fun s => s.flags) _ (fun s o => by simp) _ s

@[simp] theorem handOverOutcomes_exchanges (os : List KeyOutcome) (t : Instant) (s : State) :
    (handOverOutcomes os t s).exchanges = s.exchanges := by
  simp only [handOverOutcomes, composeKeyNotices_exchanges]
  exact foldl_keeps (fun s => s.exchanges) _ (fun s o => by simp) _ s

@[simp] theorem handOverOutcomes_proxy (os : List KeyOutcome) (t : Instant) (s : State) :
    (handOverOutcomes os t s).proxy = s.proxy := by
  simp only [handOverOutcomes, composeKeyNotices_proxy]
  exact foldl_keeps (fun s => s.proxy) _ (fun s o => by simp) _ s

@[simp] theorem handOverOutcomes_live (os : List KeyOutcome) (t : Instant) (s : State) :
    (handOverOutcomes os t s).live = s.live := by
  simp only [handOverOutcomes, composeKeyNotices_live]
  exact foldl_keeps (fun s => s.live) _ (fun s o => by simp) _ s

@[simp] theorem handOverOutcomes_log (os : List KeyOutcome) (t : Instant) (s : State) :
    (handOverOutcomes os t s).log = s.log := by
  simp only [handOverOutcomes, composeKeyNotices_log]
  exact foldl_keeps (fun s => s.log) _ (fun s o => by simp) _ s

@[simp] theorem handOverOutcomes_temp (os : List KeyOutcome) (t : Instant) (s : State) :
    (handOverOutcomes os t s).temp = s.temp := by
  simp only [handOverOutcomes, composeKeyNotices_temp]
  exact foldl_keeps (fun s => s.temp) _ (fun s o => by simp) _ s

@[simp] theorem handOverOutcomes_heat (os : List KeyOutcome) (t : Instant) (s : State) :
    (handOverOutcomes os t s).heat = s.heat := by
  simp only [handOverOutcomes, composeKeyNotices_heat]
  exact foldl_keeps (fun s => s.heat) _ (fun s o => by simp) _ s

@[simp] theorem handOverOutcomes_fan (os : List KeyOutcome) (t : Instant) (s : State) :
    (handOverOutcomes os t s).fan = s.fan := by
  simp only [handOverOutcomes, composeKeyNotices_fan]
  exact foldl_keeps (fun s => s.fan) _ (fun s o => by simp) _ s

@[simp] theorem handOverOutcomes_keypad (os : List KeyOutcome) (t : Instant) (s : State) :
    (handOverOutcomes os t s).keypad = s.keypad := by
  simp only [handOverOutcomes, composeKeyNotices_keypad]
  exact foldl_keeps (fun s => s.keypad) _ (fun s o => by simp) _ s

@[simp] theorem handOverOutcomes_mgmt (os : List KeyOutcome) (t : Instant) (s : State) :
    (handOverOutcomes os t s).mgmt = s.mgmt := by
  simp only [handOverOutcomes, composeKeyNotices_mgmt]
  exact foldl_keeps (fun s => s.mgmt) _ (fun s o => by simp) _ s

@[simp] theorem handOverOutcomes_tables (os : List KeyOutcome) (t : Instant) (s : State) :
    (handOverOutcomes os t s).tables = s.tables := by
  simp only [handOverOutcomes, composeKeyNotices_tables]
  exact foldl_keeps (fun s => s.tables) _ (fun s o => by simp) _ s

@[simp] theorem handOverOutcomes_store (os : List KeyOutcome) (t : Instant) (s : State) :
    (handOverOutcomes os t s).store = s.store := by
  simp only [handOverOutcomes, composeKeyNotices_store]
  exact foldl_keeps (fun s => s.store) _ (fun s o => by simp) _ s

/-! ### updateChords -/

@[simp] theorem updateChords_pending (t : Instant) (s : State) : (updateChords t s).pending = s.pending := by
  refine foldl_keeps (fun s => s.pending) _ (fun s c => ?_) _ s
  simp only [updateChord]; (repeat' split) <;> simp

@[simp] theorem updateChords_clock (t : Instant) (s : State) : (updateChords t s).clock = s.clock := by
  refine foldl_keeps (fun s => s.clock) _ (fun s c => ?_) _ s
  simp only [updateChord]; (repeat' split) <;> simp

@[simp] theorem updateChords_pool (t : Instant) (s : State) : (updateChords t s).pool = s.pool := by
  refine foldl_keeps (fun s => s.pool) _ (fun s c => ?_) _ s
  simp only [updateChord]; (repeat' split) <;> simp

@[simp] theorem updateChords_hostPort (t : Instant) (s : State) : (updateChords t s).hostPort = s.hostPort := by
  refine foldl_keeps (fun s => s.hostPort) _ (fun s c => ?_) _ s
  simp only [updateChord]; (repeat' split) <;> simp

@[simp] theorem updateChords_fieldPort (t : Instant) (s : State) : (updateChords t s).fieldPort = s.fieldPort := by
  refine foldl_keeps (fun s => s.fieldPort) _ (fun s c => ?_) _ s
  simp only [updateChord]; (repeat' split) <;> simp

@[simp] theorem updateChords_noticeNo (t : Instant) (s : State) : (updateChords t s).noticeNo = s.noticeNo := by
  refine foldl_keeps (fun s => s.noticeNo) _ (fun s c => ?_) _ s
  simp only [updateChord]; (repeat' split) <;> simp

@[simp] theorem updateChords_flags (t : Instant) (s : State) : (updateChords t s).flags = s.flags := by
  refine foldl_keeps (fun s => s.flags) _ (fun s c => ?_) _ s
  simp only [updateChord]; (repeat' split) <;> simp

@[simp] theorem updateChords_exchanges (t : Instant) (s : State) : (updateChords t s).exchanges = s.exchanges := by
  refine foldl_keeps (fun s => s.exchanges) _ (fun s c => ?_) _ s
  simp only [updateChord]; (repeat' split) <;> simp

@[simp] theorem updateChords_proxy (t : Instant) (s : State) : (updateChords t s).proxy = s.proxy := by
  refine foldl_keeps (fun s => s.proxy) _ (fun s c => ?_) _ s
  simp only [updateChord]; (repeat' split) <;> simp

@[simp] theorem updateChords_keyList (t : Instant) (s : State) : (updateChords t s).keyList = s.keyList := by
  refine foldl_keeps (fun s => s.keyList) _ (fun s c => ?_) _ s
  simp only [updateChord]; (repeat' split) <;> simp

@[simp] theorem updateChords_live (t : Instant) (s : State) : (updateChords t s).live = s.live := by
  refine foldl_keeps (fun s => s.live) _ (fun s c => ?_) _ s
  simp only [updateChord]; (repeat' split) <;> simp

@[simp] theorem updateChords_log (t : Instant) (s : State) : (updateChords t s).log = s.log := by
  refine foldl_keeps (fun s => s.log) _ (fun s c => ?_) _ s
  simp only [updateChord]; (repeat' split) <;> simp

@[simp] theorem updateChords_temp (t : Instant) (s : State) : (updateChords t s).temp = s.temp := by
  refine foldl_keeps (fun s => s.temp) _ (fun s c => ?_) _ s
  simp only [updateChord]; (repeat' split) <;> simp

@[simp] theorem updateChords_heat (t : Instant) (s : State) : (updateChords t s).heat = s.heat := by
  refine foldl_keeps (fun s => s.heat) _ (fun s c => ?_) _ s
  simp only [updateChord]; (repeat' split) <;> simp

@[simp] theorem updateChords_fan (t : Instant) (s : State) : (updateChords t s).fan = s.fan := by
  refine foldl_keeps (fun s => s.fan) _ (fun s c => ?_) _ s
  simp only [updateChord]; (repeat' split) <;> simp

@[simp] theorem updateChords_keypad (t : Instant) (s : State) : (updateChords t s).keypad = s.keypad := by
  refine foldl_keeps (fun s => s.keypad) _ (fun s c => ?_) _ s
  simp only [updateChord]; (repeat' split) <;> simp

@[simp] theorem updateChords_mgmt (t : Instant) (s : State) : (updateChords t s).mgmt = s.mgmt := by
  refine foldl_keeps (fun s => s.mgmt) _ (fun s c => ?_) _ s
  simp only [updateChord]; (repeat' split) <;> simp

@[simp] theorem updateChords_tables (t : Instant) (s : State) : (updateChords t s).tables = s.tables := by
  refine foldl_keeps (fun s => s.tables) _ (fun s c => ?_) _ s
  simp only [updateChord]; (repeat' split) <;> simp

@[simp] theorem updateChords_store (t : Instant) (s : State) : (updateChords t s).store = s.store := by
  refine foldl_keeps (fun s => s.store) _ (fun s c => ?_) _ s
  simp only [updateChord]; (repeat' split) <;> simp

/-! ### chordAct -/

@[simp] theorem chordAct_pending (e : ChordEntry) (t : Instant) (s : State) :
    (chordAct e t s).pending = s.pending := by
  unfold chordAct chordRestart chordRelease; (repeat' split) <;> simp

@[simp] theorem chordAct_clock (e : ChordEntry) (t : Instant) (s : State) : (chordAct e t s).clock = s.clock := by
  unfold chordAct chordRestart chordRelease; (repeat' split) <;> simp

@[simp] theorem chordAct_pool (e : ChordEntry) (t : Instant) (s : State) : (chordAct e t s).pool = s.pool := by
  unfold chordAct chordRestart chordRelease; (repeat' split) <;> simp

@[simp] theorem chordAct_hostPort (e : ChordEntry) (t : Instant) (s : State) :
    (chordAct e t s).hostPort = s.hostPort := by
  unfold chordAct chordRestart chordRelease; (repeat' split) <;> simp

@[simp] theorem chordAct_noticeNo (e : ChordEntry) (t : Instant) (s : State) :
    (chordAct e t s).noticeNo = s.noticeNo := by
  unfold chordAct chordRestart chordRelease; (repeat' split) <;> simp

@[simp] theorem chordAct_fan (e : ChordEntry) (t : Instant) (s : State) : (chordAct e t s).fan = s.fan := by
  unfold chordAct chordRestart chordRelease; (repeat' split) <;> simp

@[simp] theorem chordAct_keypad (e : ChordEntry) (t : Instant) (s : State) :
    (chordAct e t s).keypad = s.keypad := by
  unfold chordAct chordRestart chordRelease; (repeat' split) <;> simp

@[simp] theorem chordAct_tables (e : ChordEntry) (t : Instant) (s : State) :
    (chordAct e t s).tables = s.tables := by
  unfold chordAct chordRestart chordRelease; (repeat' split) <;> simp

@[simp] theorem chordAct_store (e : ChordEntry) (t : Instant) (s : State) : (chordAct e t s).store = s.store := by
  unfold chordAct chordRestart chordRelease; (repeat' split) <;> simp

/-! ### fireChord -/

@[simp] theorem fireChord_pending (c : ChordId) (t : Instant) (s : State) :
    (fireChord c t s).pending = s.pending := by
  simp only [fireChord]; split <;> simp

@[simp] theorem fireChord_clock (c : ChordId) (t : Instant) (s : State) : (fireChord c t s).clock = s.clock := by
  simp only [fireChord]; split <;> simp

@[simp] theorem fireChord_fan (c : ChordId) (t : Instant) (s : State) : (fireChord c t s).fan = s.fan := by
  simp only [fireChord]; split <;> simp

@[simp] theorem fireChord_keypad (c : ChordId) (t : Instant) (s : State) :
    (fireChord c t s).keypad = s.keypad := by
  simp only [fireChord]; split <;> simp

@[simp] theorem fireChord_tables (c : ChordId) (t : Instant) (s : State) :
    (fireChord c t s).tables = s.tables := by
  simp only [fireChord]; split <;> simp

@[simp] theorem fireChord_store (c : ChordId) (t : Instant) (s : State) : (fireChord c t s).store = s.store := by
  simp only [fireChord]; split <;> simp

end Sys2Proof.Machine
end

