-- ==== Sys2Proof/Laws/Specs.lean ====
section
/-! SUPPORT. What each shared operation does, said once: the facts that later proofs cite in place of unfolding. -/

namespace Sys2Proof.Machine

/-! ### The pool and the queues -/

/-- Either the claim finds a Free buffer, or none is Free (R15, R16). -/
theorem firstFree_spec (s : State) : (∃ b, firstFree s = some b ∧ s.pool[b].state = .free) ∨ (firstFree s = none ∧
    freeCount s = 0) := by
  unfold firstFree freeCount
  cases h : List.find? (isFree s) (List.finRange 24) with
  | none =>
    right; refine ⟨rfl, ?_⟩
    rw [List.countP_eq_zero]
    intro a ha
    have := List.find?_eq_none.1 h a ha
    simpa using this
  | some b =>
    left; refine ⟨b, rfl, ?_⟩
    have := List.find?_some h
    simpa [isFree] using this

/-- A claim finds a buffer exactly when one is Free (R15). -/
theorem firstFree_isSome (s : State) : (firstFree s).isSome = true ↔ 0 < freeCount s := by
  unfold firstFree freeCount
  rw [List.find?_isSome, List.countP_pos_iff]

/-- Room in the Host Transmit Queue (R18). -/
theorem hostQueueRoom_iff (s : State) : hostQueueRoom s = true ↔ s.hostPort.queue.length < 16 :=
    by simp [hostQueueRoom]

/-- Room in the Field Transmit Queue (R19). -/
theorem fieldQueueRoom_iff (s : State) : fieldQueueRoom s = true ↔ s.fieldPort.queue.length < 16 :=
    by simp [fieldQueueRoom]

/-! ### KEY notices -/

/-- The four conditions of R167. -/
theorem keyNoticeReady_iff (s : State) : keyNoticeReady s = true ↔ (hostUp s = true ∧ s.keyUnit.queue ≠ [] ∧
    0 < freeCount s ∧ s.hostPort.queue.length < 16) := by
  unfold keyNoticeReady
  rw [Bool.and_eq_true, Bool.and_eq_true, Bool.and_eq_true, firstFree_isSome, hostQueueRoom_iff]; simp [and_assoc]

/-- Without the four conditions nothing is composed (R167). -/
theorem composeKeyNotices_of_not_ready (s : State) (h : keyNoticeReady s = false) : composeKeyNotices s = s := by
  unfold composeKeyNotices
  cases s.keyUnit.queue.length <;> simp [keyNoticeTurns, h]

/-- A state that composes no notices is not HostUp (R17). -/
theorem isHostUp_of_composesNotices (l : Liveness) (h : l.composesNotices = false) : l.isHostUp = false :=
    by cases l <;> simp_all [Liveness.composesNotices, Liveness.isHostUp]

/-- While the host is not up a released buffer is only Free again (R16). -/
theorem releaseBuffer_of_host_down (b : BufferId) (s : State) (h : hostUp s = false)
    : releaseBuffer b s = setBuffer b {} s := by
  unfold releaseBuffer; rw [composeKeyNotices_of_not_ready]; unfold keyNoticeReady
  rw [show hostUp (setBuffer b {} s) = hostUp s from rfl, h]; simp

/-- As many turns as there are records are all the turns there are (R167). -/
theorem keyNoticeTurns_enough (n : Nat) (s : State) (h : s.keyUnit.queue.length ≤ n)
    : keyNoticeTurns n s = composeKeyNotices s := by
  have len : ∀ s, keyNoticeReady s = true → (composeKeyNotice s).keyUnit.queue.length < s.keyUnit.queue.length := by
    intro s hr
    have := (keyNoticeReady_iff s).1 hr
    obtain ⟨_, h1, h2, _⟩ := this
    have h3 := (firstFree_isSome s).2 h2
    obtain ⟨b, hb⟩ := Option.isSome_iff_exists.1 h3
    simp only [composeKeyNotice, hb]
    have : 0 < s.keyUnit.queue.length := List.length_pos_iff.2 h1
    simp [bump, bumpBy, queueNotice, enqueueHost, setBuffer]; omega
  have key : ∀ n m s, s.keyUnit.queue.length ≤ n → s.keyUnit.queue.length ≤ m →
      keyNoticeTurns n s = keyNoticeTurns m s := by
    intro n
    induction n with
    | zero =>
      intro m s hn hm
      have : keyNoticeReady s = false := by
        by_contra hc
        have := (keyNoticeReady_iff s).1 (by simpa using hc)
        have := List.length_pos_iff.2 this.2.1; omega
      cases m <;> simp [keyNoticeTurns, this]
    | succ n ih =>
      intro m s hn hm
      by_cases hr : keyNoticeReady s = true
      · have h1 := (keyNoticeReady_iff s).1 hr
        have h2 := List.length_pos_iff.2 h1.2.1
        have h3 := len s hr
        cases m with
        | zero => omega
        | succ m => simp only [keyNoticeTurns, hr, if_true]; exact ih m _ (by omega) (by omega)
      · cases m <;> simp [keyNoticeTurns, hr]
  exact key _ _ _ h (le_refl _)

/-! ### Frames at the router -/

/-- A port outside Filling has no frame to complete (R14). -/
theorem completeFrame_outside_filling (p : Port) (s : State) (h :
    (s.rx p).assembler = .idle ∨ (s.rx p).assembler = .skipping) : completeFrame p s = s := by
  unfold completeFrame completedFrame; rcases h with h | h <;> simp [h]

/-- A frame still being filled is not completed (R10, R14). -/
theorem completeFrame_unfinished (p : Port) (s : State) (b a) (h : (s.rx p).assembler = .filling b a) (hb :
    frameIsComplete s.pool[b].bytes = false) : completeFrame p s = s := by
  have hb' : frameIsComplete (s.pool[(b : Nat)]'(b.isLt)).bytes = false := hb
  unfold completeFrame completedFrame; simp [h, hb']

/-- A host Reply is no own Request. -/
theorem isOwnRequest_of_hostReply (f : RoutedFrame) (h : f.isHostReply = true) : f.isOwnRequest = false := by
  simp [RoutedFrame.isHostReply] at h; simp [RoutedFrame.isOwnRequest, h]

/-- A host Reply is no broadcast Request. -/
theorem isBroadcastRequest_of_hostReply (f : RoutedFrame) (h : f.isHostReply = true)
    : f.isBroadcastRequest = false := by
  simp [RoutedFrame.isHostReply] at h; simp [RoutedFrame.isBroadcastRequest, h]

/-- A frame that goes to lookup is routed by it, with no exchange to end (R34 to R36). -/
theorem routeFrame_lookup (f : RoutedFrame) (s : State) (h : GoesToLookup f s)
    : routeFrame f s = routeByLookup f none s := by
  unfold routeFrame
  by_cases ho : f.isOwnRequest = true
  · simp [ho, routeOwnRequest, h.2 ho]
  · simp [ho, h.1]

/-! ### Exchanges -/

/-- Expiry takes one entry out of Waiting and no other (R54). -/
theorem expireExchange_isWaiting (i h t s) (j : ExchangeId)
    : ((expireExchange i h t s).exchanges[j].isWaiting = true ↔ s.exchanges[j].isWaiting = true ∧ j ≠ i) := by
  unfold expireExchange
  split
  · rename_i r hr
    simp
    by_cases c : (i:Nat) = j
    · have : i = j := Fin.ext c
      subst this; simp [Exchange.isWaiting]
    · rw [Vector.getElem_set_ne _ _ c]
      have : j ≠ i := fun h => c (by rw [h])
      simp [this]
  · rename_i hx
    constructor
    · intro hw; refine ⟨hw, ?_⟩; rintro rfl
      simp only [Exchange.isWaiting] at hw
      revert hw; 
      cases hj : s.exchanges[j] with
      | waiting r => exact fun _ => hx r hj
      | free => simp
      | late _ _ => simp
    · exact fun h => h.1

/-- A list of expiries takes its entries out of Waiting and no others (R57). -/
theorem foldl_expireExchange_isWaiting (l : List ExchangeId) (t s) (j : ExchangeId)
    : ((l.foldl (fun s i => expireExchange i true t s) s).exchanges[j].isWaiting = true ↔
    s.exchanges[j].isWaiting = true ∧ j ∉ l) := by
  induction l generalizing s with
  | nil => simp
  | cons a l ih => rw [List.foldl_cons, ih, expireExchange_isWaiting]; simp [and_assoc]

/-- Ordering by age loses and adds no entry (R57). -/
theorem mem_insertByAge (x : Nat × ExchangeId) (l) (y) : y ∈ insertByAge x l ↔ y = x ∨ y ∈ l := by
  induction l with
  | nil => simp [insertByAge]
  | cons a l ih => 
    unfold insertByAge; split
    · simp
    · simp [ih]; tauto

/-- Ordering a list by age loses and adds no entry (R57). -/
theorem mem_foldl_insertByAge (l : List (Nat × ExchangeId)) (acc y) : y ∈ l.foldl (fun acc x => insertByAge x acc)
    acc ↔ y ∈ l ∨ y ∈ acc := by
  induction l generalizing acc with
  | nil => simp
  | cons a l ih => simp [ih, mem_insertByAge]; tauto

/-- The entries that expire on leaving HostUp are the Waiting ones (R57). -/
theorem mem_waitingByAge (t s) (j : ExchangeId) : j ∈ waitingByAge t s ↔ s.exchanges[j].isWaiting = true := by
  simp only [waitingByAge, List.mem_map]
  constructor
  · rintro ⟨x, hx, rfl⟩
    rw [mem_foldl_insertByAge] at hx
    simp at hx
    obtain ⟨a, ⟨w, hw, rfl⟩⟩ := hx
    simp [Exchange.waitingSince] at hw
    simp only [Fin.getElem_fin]
    revert hw; cases s.exchanges[(a:Nat)] <;> simp [Exchange.isWaiting]
  · intro h
    refine ⟨?_, ?_⟩
    · exact ((match s.exchanges[j].waitingSince with | some o => elapsed o t.ms | none => 0), j)
    · rw [mem_foldl_insertByAge]; refine ⟨Or.inl ?_, rfl⟩
      simp
      revert h
      simp only [Fin.getElem_fin]
      cases s.exchanges[(j:Nat)] <;> simp [Exchange.isWaiting, Exchange.waitingSince]

/-! ### Liveness -/

/-- A timer that is due belongs to the state that liveness is in (R75). -/
theorem state_of_livenessTimerDue (st s) (h : livenessTimerDue st s = true) : s.live.state = st := by
  simp [livenessTimerDue] at h; exact h.1

/-- The state entered. -/
theorem enterState_state (st tm t s) : (enterState st tm t s).live.state = st := by
  simp only [enterState, hostPowerOn]; (repeat' split) <;> simp

/-- A move that neither raises host power nor leaves HostUp changes only the Liveness Controller (R75). -/
theorem enterState_plain (st : Liveness) (tm t s) (h1 : s.live.state.isPowered = true ∨ st.isPowered = false) (h2 :
    s.live.state.isHostUp = false ∨ st.isHostUp = true) :
   enterState st tm t s = { s with live := { s.live with state := st, enteredAt := t.sec, timer := tm } } := by
  unfold enterState; rcases h1 with h1 | h1 <;> rcases h2 with h2 | h2 <;> simp [h1, h2]

/-- A move that does not raise host power: the Liveness Controller, the heaters and the keys after it (R75, R96). -/
theorem enterState_unpowering (st : Liveness) (tm t s) (h1 : st.isPowered = false ∨ s.live.state.isPowered = true) :
   (enterState st tm t s).live = { s.live with state := st, enteredAt := t.sec, timer := tm } ∧
       (enterState st tm t s).heat = s.heat ∧
   (enterState st tm t s).keyUnit.records = s.keyUnit.records ∧ 
   (hostUp s = true → st.isHostUp = false → (enterState st tm t s).keyUnit.queue = [] ) := by
  have e : (st.isPowered && !s.live.state.isPowered) = false := by rcases h1 with h | h <;> simp [h]
  unfold enterState
  simp only [e, Bool.false_eq_true, if_false]
  split
  · simp [leaveHostUp]
  · simp; intro h h2; simp_all [hostUp]

/-- POWERING entered from an unpowered state (R80). -/
theorem enterPowering_live (t s) (h : s.live.state.isPowered = false)
    : (enterPowering t s).live =
    { s.live with state := .powering, enteredAt := t.sec, bootTime := none, timer := some ⟨t.ms, (settings s).powerSettle.toNat⟩ } ∧ (enterPowering t s).exchanges = s.exchanges := by
  have hu : s.live.state.isHostUp = false := by revert h; cases s.live.state <;> simp [Liveness.isPowered,
      Liveness.isHostUp]
  have hpp : Liveness.powering.isPowered = true := rfl
  simp [enterPowering, enterState, h, hu, hostPowerOn, hpp, startTimer]

/-- The states in which a heartbeat is heard (R84). -/
theorem hears_iff (l : Liveness) : l.hears = true ↔ l ∈ [Liveness.booting, .running, .warned] :=
    by cases l <;> simp [Liveness.hears]

/-- COLD HOLD is left only from COLD HOLD (R79). -/
theorem leaveColdHold_elsewhere (t s) (h : s.live.state ≠ .coldHold) : leaveColdHold t s = s := by
  unfold leaveColdHold; rw [if_neg]; simp [h]

/-- The handover moves liveness only when the host is powered or in HOT HOLD or COLD HOLD (R92, R79). -/
theorem handOverThermal_elsewhere (before t s) (h1 : hostPowerEnable s = false) (h2 : s.live.state ≠ .hotHold)
    (h3 : s.live.state ≠ .coldHold) : handOverThermal before t s = s := by
  have a : hotRaised t s = s := by unfold hotRaised; rw [h1]; rfl
  have b : hotCleared t s = s :=
      by unfold hotCleared; rw [if_neg (by simpa using h2)]; exact leaveColdHold_elsewhere _ _ h3
  simp only [handOverThermal, a, b, ite_self]
  split
  · exact leaveColdHold_elsewhere _ _ h3
  · rfl

/-- A traffic heartbeat is disregarded where none is heard (R85). -/
theorem trafficHeartbeat_unheard (t s) (h : s.live.state.hears = false) : trafficHeartbeat t s = s := by
  unfold trafficHeartbeat; rw [h]; simp

/-! ### Keypad -/

/-- A corner counts when its position is on the keypad and counted (R148). -/
theorem cornerAt_iff (corner : KeyPos → Bool) (r c : Nat) (hc : c < 8) : cornerAt corner r c = true ↔ ∃ h :
    r * 8 + c < 48, corner ⟨r*8+c, h⟩ = true := by
  unfold cornerAt keyAt keyPosOfNat
  simp only [hc, if_true]
  by_cases h : r * 8 + c < 48
  · simp [h]
  · simp [h]

/-- Reporting the happenings of a sample leaves the keys alone (R155). -/
theorem foldl_reportHappening_keypad (l : List KeyPos) (f : KeyPos → KeyHappening) (s : State)
    : (l.foldl (fun s p => reportHappening p (f p) s) s).keypad = s.keypad := by
  exact foldl_keeps (fun s => s.keypad) _ (fun s p => by simp) l s

/-! ### Management commands -/

/-- What a command taken up from a port is, and what the state loses by it (R177). -/
theorem takes_spec (code p c s s') (h : Takes code p c s s') : c.port = p ∧
    s' = { s with mgmt.waiting := s'.mgmt.waiting } ∧ ∃ b, waitingCommand p s = some b ∧ c = commandIn b s := by
  unfold Takes takeCommand at h
  split at h
  · rename_i b hb
    split at h
    · simp only [Option.some.injEq, Prod.mk.injEq] at h
      obtain ⟨rfl, rfl⟩ := h
      refine ⟨?_, rfl, b, hb, rfl⟩
      have := List.find?_some hb
      simpa [commandIn] using this
    · simp at h
  · simp at h

/-- A command taken up changes only the list of waiting commands (R177). -/
theorem takes_frame {code p c s s'} (h : Takes code p c s s') : s'.mgmt.frozen = s.mgmt.frozen ∧
    s'.mgmt.permit = s.mgmt.permit ∧ s'.mgmt.resetPending = s.mgmt.resetPending ∧ s'.live = s.live ∧
    s'.tables = s.tables ∧ s'.proxy = s.proxy ∧ s'.store = s.store ∧ s'.log = s.log ∧ s'.flags = s.flags ∧
    s'.counters = s.counters ∧ s'.temp = s.temp ∧ s'.fan = s.fan ∧ s'.hostPort = s.hostPort ∧
    s'.exchanges = s.exchanges ∧ s'.keyList = s.keyList ∧ s'.heat = s.heat := by
  have := (takes_spec _ _ _ _ _ h).2.1
  rw [this]; simp

/-- A row carries out the command it takes up and answers it (R177). -/
theorem serve_eq (code k p act c s s') (h : Takes code p c s s')
    : serve code k p act s = replyTo code c (answerCommand k act c s').result (answerCommand k act c s').data
    (answerCommand k act c s').state := by
  unfold serve; rw [show takeCommand code p s = some (c, s') from h]; rfl

/-- A command that R178 keeps out is answered with the refusal alone. -/
theorem serve_refused (code k p act c s s' r) (h : Takes code p c s s') (hr : Permission.refusal k p s' = some r)
    : serve code k p act s = replyTo code c r [] s' := by
  rw [serve_eq _ _ _ _ _ _ _ h]; rw [(takes_spec _ _ _ _ _ h).1.symm] at hr; simp [answerCommand, hr, refuse]

/-- A command that R178 lets in is carried out and answered. -/
theorem serve_admitted (code k p act c s s') (h : Takes code p c s s') (hr : Permission.refusal k p s' = none)
    : serve code k p act s = replyTo code c (act c s').result (act c s').data (act c s').state := by
  rw [serve_eq _ _ _ _ _ _ _ h]; rw [(takes_spec _ _ _ _ _ h).1.symm] at hr; simp [answerCommand, hr]

/-- A command barred by Frozen is let in with a permit and without Frozen (R178). -/
theorem refusal_notFrozen {k : Permission} {q s s'} (hk : k = .notFrozen) (hp : Permitted q s) (hz :
    s.mgmt.frozen = false) (hf : s'.mgmt.frozen = s.mgmt.frozen ∧ s'.mgmt.permit = s.mgmt.permit)
    : k.refusal q s' = none := by
  subst hk; simp [Permission.refusal, needPermit, hf, hz]
  rcases hp with rfl | h
  · simp
  · intro _ h2; simp [h2] at h

/-- A command that needs Field Permit is let in with it (R178). -/
theorem refusal_fieldPermit {k : Permission} {q s s'} (hk : k = .fieldPermit) (hp : Permitted q s) (hf :
    s'.mgmt.permit = s.mgmt.permit) : k.refusal q s' = none := by
  subst hk; simp [Permission.refusal, needPermit, hf]
  rcases hp with rfl | h
  · simp
  · intro _ h2; simp [h2] at h

/-- A number below 256 as a byte. -/
theorem byte_toNat (n : Nat) (h : n < 256) : (byte n).toNat = n := by simp [byte]; omega

/-- Four bytes read as a signed number, high byte first. -/
theorem readInt32_bytes (b0 b1 b2 b3 : Byte) : readInt32 [b0,b1,b2,b3] = (b0 ++ b1 ++ b2 ++ b3).toInt := by
  unfold readInt32 readBE
  congr 1
  apply BitVec.eq_of_toNat_eq
  simp only [List.foldl_cons, List.foldl_nil, BitVec.toNat_ofNat, BitVec.toNat_append, Nat.shiftLeft_eq]
  have h1 : ∀ a b : Nat, b < 2 ^ 8 → a * 2 ^ 8 ||| b = a * 256 + b := by
    intro a b hb
    have := Nat.two_pow_add_eq_or_of_lt hb a
    rw [Nat.mul_comm a, ← this]; omega
  rw [h1 _ _ b1.isLt, h1 _ _ b2.isLt, h1 _ _ b3.isLt]
  have := b0.isLt; have := b1.isLt; have := b2.isLt; have := b3.isLt
  omega

/-- Two bytes read high byte first. -/
theorem readBE_two (b0 b1 : Byte) : BitVec.ofNat 16 (readBE [b0,b1]) = b0 ++ b1 ∧ readBE [b0,
    b1] = (b0 ++ b1).toNat := by
  have h2 : readBE [b0, b1] = (b0 ++ b1).toNat := by
    unfold readBE
    simp only [List.foldl_cons, List.foldl_nil, BitVec.toNat_append, Nat.shiftLeft_eq]
    have := Nat.two_pow_add_eq_or_of_lt b1.isLt b0.toNat
    rw [Nat.mul_comm b0.toNat, ← this]; omega
  refine ⟨?_, h2⟩
  rw [h2]; simp

/-- The first entry with a fault. -/
theorem firstFault_iff {n} (f : Fin n → Option Nat) (i : Fin n) (r) : firstFault f = some (i.val, r) ↔
    f i = some r ∧ ∀ j < i, f j = none := by
  unfold firstFault
  rw [List.findSome?_eq_some_iff]
  have hs : List.Pairwise (· < ·) (List.finRange n) := List.pairwise_lt_finRange n
  constructor
  · rintro ⟨l1, a, l2, hl, hfa, hno⟩
    cases hfa' : f a with
    | none => simp [hfa'] at hfa
    | some r' =>
      simp [hfa'] at hfa
      obtain ⟨hai, rfl⟩ := hfa
      have : a = i := Fin.ext hai
      subst this
      refine ⟨hfa', ?_⟩
      intro j hj
      have hm : j ∈ List.finRange n := List.mem_finRange j
      rw [hl] at hm hs
      rcases List.mem_append.1 hm with h | h
      · have := hno j h; simpa using this
      · exfalso
        rcases List.mem_cons.1 h with rfl | h
        · exact lt_irrefl _ hj
        · have := (List.pairwise_cons.1 (List.pairwise_append.1 hs).2.1).1 j h
          exact lt_asymm this hj
  · rintro ⟨h1, h2⟩
    obtain ⟨l1, l2, hl⟩ := List.append_of_mem (List.mem_finRange i)
    refine ⟨l1, i, l2, hl, by simp [h1], ?_⟩
    intro x hx
    rw [hl] at hs
    have := (List.pairwise_append.1 hs).2.2 x hx i (by simp)
    simp [h2 x this]

/-! ### Leaving HostUp, as one statement -/

/-- A state with what an offered reply can change taken from another: the Field Port, the Proxy Table, the key list and
the counters of their groups. -/
def withReplies (o u : State) : State :=
  { o with
    fieldPort := u.fieldPort, proxy := u.proxy, keyList := u.keyList
    counters := { o.counters with links := u.counters.links, proxy := u.counters.proxy } }

/-- An offered reply neither reads nor changes anything else (R19). -/
theorem offerReply_withReplies (d : Descriptor) (o u : State) :
    offerReply d (withReplies o u) = withReplies o (offerReply d u) := by
  unfold offerReply
  rw [show fieldQueueRoom (withReplies o u) = fieldQueueRoom u from rfl, apply_ite (withReplies o)]
  congr 1
  unfold undoDescriptor
  cases d.source <;> rfl

/-- A composed reply neither reads nor changes anything else, but for the tables that it reads (R62). -/
theorem composeReply_withReplies (p : ReplyPurpose) (topic tag : Byte) (h : Bool) (t : Instant) (o u : State)
    (ht : o.tables = u.tables) :
    composeReply p topic tag h t (withReplies o u) = withReplies o (composeReply p topic tag h t u) := by
  have st : ∀ u : State, o.tables = u.tables → ownStation (withReplies o u) = ownStation u := by
    intro u hu; simp [ownStation, settings, withReplies, hu]
  have bare : ∀ (f : ReplyFlags) (u : State), o.tables = u.tables →
      offerBareReply topic tag f (withReplies o u) = withReplies o (offerBareReply topic tag f u) := by
    intro f u hu
    unfold offerBareReply
    rw [st u hu, offerReply_withReplies]
  have none' : noHalfReply p topic tag h (withReplies o u) = withReplies o (noHalfReply p topic tag h u) := by
    cases p with
    | exchangeFull => exact bare _ u ht
    | _ => exact bare _ (bump Ctr.proxyEmptyReplies u) ht
  have some' : ∀ e, proxyReply e topic tag h t (withReplies o u) = withReplies o (proxyReply e topic tag h t u) := by
    intro e
    simp only [proxyReply]
    rw [← offerReply_withReplies, st u ht, show (withReplies o u).tables = u.tables from ht]
    congr 1
    rw [apply_ite (withReplies o)]
    rfl
  unfold composeReply
  rw [show proxyFor topic (withReplies o u) = proxyFor topic u by simp only [proxyFor, withReplies, ht]]
  cases proxyFor topic u with
  | none => exact none'
  | some e =>
    simp only [apply_ite (withReplies o)]
    exact if_congr Iff.rfl (if_congr Iff.rfl (some' e) (bare _ (bump Ctr.proxyPinLimitReplies u) ht)) none'

/-- A composed reply leaves the key list as it was: what it may undo holds no key-list copy (R62). -/
theorem composeReply_keyList (p : ReplyPurpose) (topic tag : Byte) (h : Bool) (t : Instant) (s : State) :
    (composeReply p topic tag h t s).keyList = s.keyList := by
  simp only [composeReply, proxyReply, noHalfReply, offerBareReply, offerReply, undoDescriptor]
  (repeat' split) <;> simp

/-- Two rises of a counter are one of their sum (00_scope.md). -/
theorem satAdd_satAdd (c : Counter) (a b : Nat) : satAdd (satAdd c a) b = satAdd c (a + b) := by
  apply BitVec.eq_of_toNat_eq
  simp only [satAdd, BitVec.toNat_ofNat]
  omega

/-- A rise by 0 changes no counter. -/
theorem satAdd_zero (c : Counter) : satAdd c 0 = c := by
  apply BitVec.eq_of_toNat_eq
  have := c.isLt
  simp only [satAdd, BitVec.toNat_ofNat]
  omega

/-- The counters of the Exchanges group after this many expiries with this many retries absorbed before them (R54). -/
def countExpiries (n retries : Nat) (cs : Vector Counter 9) : Vector Counter 9 :=
  let d := cs.set (4 : Fin 9) (satAdd (cs[(4 : Fin 9)]) n)
  d.set (6 : Fin 9) (satAdd (d[(6 : Fin 9)]) retries)

/-- Two runs of expiries count as one run of both (R54). -/
theorem countExpiries_countExpiries (n m k l : Nat) (cs : Vector Counter 9) :
    countExpiries m l (countExpiries n k cs) = countExpiries (n + m) (k + l) cs := by
  ext i hi
  rcases i with _ | _ | _ | _ | _ | _ | _ | _ | _ | i <;>
    first | omega | simp [countExpiries, satAdd_satAdd]

/-- A state with its Exchange Table and the counters of the Exchanges group replaced. -/
def withTracker (x : Vector Exchange 8) (c : Vector Counter 9) (o : State) : State :=
  { o with exchanges := x, counters := { o.counters with exchanges := c } }

/-- What becomes of an entry as liveness leaves HostUp (R57). -/
def expired (s : State) (x : Exchange) : Exchange :=
  match x with
  | .waiting r => .late r ⟨s.clock.ms, (settings s).lateHold.toNat⟩
  | x => x

/-- The expiry of an entry that is Waiting in `s`: the entry, the counters, and the reply that is offered (R54, R57). -/
theorem expireExchange_withReplies (s o u : State) (i : ExchangeId) (x c) (hx : x[i] = s.exchanges[i])
    (hw : s.exchanges[i].isWaiting = true) (ho : o.tables = s.tables) (hu : u.tables = s.tables) :
    expireExchange i true s.clock (withReplies (withTracker x c o) u) =
      withReplies (withTracker (x.set i (expired s x[i])) (countExpiries 1 s.exchanges[i].retryCount c) o)
        (offerExpiryReply s u i) := by
  unfold expireExchange offerExpiryReply
  rw [show (withReplies (withTracker x c o) u).exchanges[i] = s.exchanges[i] from hx, hx]
  cases hr : s.exchanges[i] with
  | waiting r =>
    simp only [expired, Exchange.retryCount]
    rw [show settings (withReplies (withTracker x c o) u) = settings s by
          simp [settings, withReplies, withTracker, ho],
      show ∀ y, setExchange i y (withReplies (withTracker x c o) u) = withReplies (withTracker (x.set i y) c o) u
        from fun _ => rfl,
      composeReply_withReplies _ _ _ _ _ (withTracker _ c o) u (ho.trans hu.symm)]
    rfl
  | free => simp [hr, Exchange.isWaiting] at hw
  | late r h => simp [hr, Exchange.isWaiting] at hw

/-- An expiry reply leaves the tables as they stand (R57). -/
theorem offerExpiryReply_tables (s u : State) (i : ExchangeId) : (offerExpiryReply s u i).tables = u.tables := by
  unfold offerExpiryReply; split <;> simp

/-- Expiries of entries that are Waiting, each once: every one of them is Late, the others stand, the replies are offered
in the order given, and the counts add up (R54, R57). -/
theorem foldl_expireExchange_withReplies (s o : State) (ho : o.tables = s.tables) (l : List ExchangeId)
    (hn : l.Nodup) (hw : ∀ i ∈ l, s.exchanges[i].isWaiting = true) (u : State) (x c)
    (hx : ∀ i ∈ l, x[i] = s.exchanges[i]) (hu : u.tables = s.tables) :
    ∃ y : Vector Exchange 8,
      l.foldl (fun v i => expireExchange i true s.clock v) (withReplies (withTracker x c o) u) =
        withReplies (withTracker y (countExpiries l.length (l.map fun i => s.exchanges[i].retryCount).sum c) o)
          (l.foldl (offerExpiryReply s) u) ∧
      ∀ j : ExchangeId, y[j] = if j ∈ l then expired s s.exchanges[j] else x[j] := by
  induction l generalizing u x c with
  | nil => exact ⟨x, by simp [countExpiries, satAdd_zero], by simp⟩
  | cons a l ih =>
    obtain ⟨ha, hn⟩ := List.nodup_cons.1 hn
    obtain ⟨y, h1, h2⟩ := ih hn (fun i hi => hw i (by simp [hi])) (offerExpiryReply s u a)
      (x.set a (expired s x[a])) (countExpiries 1 s.exchanges[a].retryCount c)
      (fun i hi => by
        have : (a : Nat) ≠ i := fun h => ha (by rw [Fin.ext h]; exact hi)
        rw [← hx i (by simp [hi])]
        exact Vector.getElem_set_ne _ _ this)
      (by rw [offerExpiryReply_tables, hu])
    refine ⟨y, ?_, fun j => ?_⟩
    · rw [List.foldl_cons, expireExchange_withReplies s o u a x c (hx a (by simp)) (hw a (by simp)) ho hu, h1,
        countExpiries_countExpiries]
      simp [Nat.add_comm]
    · rw [h2]
      by_cases hj : j = a
      · subst hj
        simp [ha, ← hx j (by simp)]
      · have : (a : Nat) ≠ j := fun h => hj (Fin.ext h.symm)
        simp [hj, Vector.getElem_set_ne _ _ this]

/-- Older before younger, and of one age the lower index first (R57). -/
def OlderFirst (x y : Nat × ExchangeId) : Prop := y.1 < x.1 ∨ (x.1 = y.1 ∧ x.2 < y.2)

/-- Putting an entry of a higher index into a list in R57's order keeps the order. -/
theorem pairwise_insertByAge (x : Nat × ExchangeId) (l) (h : l.Pairwise OlderFirst) (hx : ∀ y ∈ l, y.2 < x.2) :
    (insertByAge x l).Pairwise OlderFirst := by
  induction l with
  | nil => simp [insertByAge]
  | cons a l ih =>
    obtain ⟨h1, h2⟩ := List.pairwise_cons.1 h
    unfold insertByAge
    split
    · rename_i hlt
      refine List.pairwise_cons.2 ⟨fun y hy => ?_, h⟩
      rcases List.mem_cons.1 hy with rfl | hy
      · exact .inl hlt
      · left
        rcases h1 y hy with h | h <;> omega
    · rename_i hge
      refine List.pairwise_cons.2 ⟨fun y hy => ?_, ih h2 fun y hy => hx y (by simp [hy])⟩
      rcases (mem_insertByAge x l y).1 hy with rfl | hy
      · rcases Nat.lt_or_eq_of_le (Nat.le_of_not_lt hge) with h | h
        · exact .inl h
        · exact .inr ⟨h.symm, hx a (by simp)⟩
      · exact h1 y hy

/-- Putting entries in by rising index gives a list in R57's order. -/
theorem pairwise_foldl_insertByAge (l acc : List (Nat × ExchangeId)) (h : acc.Pairwise OlderFirst)
    (hl : (l.map Prod.snd).Pairwise (· < ·)) (hx : ∀ y ∈ acc, ∀ x ∈ l, y.2 < x.2) :
    (l.foldl (fun acc x => insertByAge x acc) acc).Pairwise OlderFirst := by
  induction l generalizing acc with
  | nil => exact h
  | cons a l ih =>
    obtain ⟨h1, h2⟩ := List.pairwise_cons.1 hl
    refine ih _ (pairwise_insertByAge a acc h fun y hy => hx y hy a (by simp)) h2 fun y hy x hm => ?_
    rcases (mem_insertByAge a acc y).1 hy with rfl | hy
    · exact h1 _ (List.mem_map_of_mem hm)
    · exact hx y hy x (by simp [hm])

/-- The entries that expire on leaving HostUp come in R57's order (log 33). -/
theorem pairwise_waitingByAge (s : State) : (waitingByAge s.clock s).Pairwise (ExpiresBefore s) := by
  let aged := (List.finRange 8).filterMap fun i =>
    s.exchanges[i].waitingSince.map fun o => (elapsed o s.clock.ms, i)
  have hage : ∀ p ∈ aged.foldl (fun acc x => insertByAge x acc) [],
      ∀ r, s.exchanges[p.2] = .waiting r → p.1 = (s.clock.ms - r.openTime).toNat := by
    intro p hp r hr
    rw [mem_foldl_insertByAge] at hp
    simp [aged] at hp
    obtain ⟨a, w, hw, rfl⟩ := hp
    simp only [Fin.getElem_fin] at hr hw
    simp [hr, Exchange.waitingSince] at hw
    simp [← hw, elapsed]
  have hs : (aged.map Prod.snd).Pairwise (· < ·) := by
    rw [List.map_filterMap]
    refine List.Pairwise.filterMap _ ?_ (List.pairwise_lt_finRange 8)
    intro i j hij b hb c hc
    simp at hb hc
    obtain ⟨_, _, _, rfl⟩ := hb
    obtain ⟨_, _, _, rfl⟩ := hc
    exact hij
  have := pairwise_foldl_insertByAge aged [] List.Pairwise.nil hs (by simp)
  unfold waitingByAge
  rw [List.pairwise_map]
  refine List.Pairwise.imp_of_mem ?_ this
  intro a b ha hb hab r q hr hq
  rw [← hage a ha r hr, ← hage b hb q hq]
  exact hab

/-- No entry expires twice on leaving HostUp (R57). -/
theorem nodup_waitingByAge (s : State) : (waitingByAge s.clock s).Nodup := by
  refine List.Pairwise.imp_of_mem ?_ (pairwise_waitingByAge s)
  rintro i j hi - h rfl
  have hw := (mem_waitingByAge _ _ _).1 hi
  revert hw
  cases hr : s.exchanges[i] with
  | waiting r => simpa using h r r hr hr
  | free => simp [Exchange.isWaiting]
  | late r h => simp [Exchange.isWaiting]

/-- The expiry replies of R57 leave the key list as it stands. -/
theorem foldl_offerExpiryReply_keyList (s : State) (l : List ExchangeId) (u : State) :
    (l.foldl (offerExpiryReply s) u).keyList = u.keyList := by
  induction l generalizing u with
  | nil => rfl
  | cons a l ih =>
    rw [List.foldl_cons, ih]
    unfold offerExpiryReply
    split <;> simp [composeReply_keyList]

/-- Two states that leaving HostUp does not tell apart: they differ in liveness, its log and what it counts, at most. -/
structure SameHandOver (s v : State) : Prop where
  clock : v.clock = s.clock
  tables : v.tables = s.tables
  exchanges : v.exchanges = s.exchanges
  fieldPort : v.fieldPort = s.fieldPort
  hostPort : v.hostPort = s.hostPort
  proxy : v.proxy = s.proxy
  keyList : v.keyList = s.keyList
  keyUnit : v.keyUnit = s.keyUnit
  pool : v.pool = s.pool
  noticeNo : v.noticeNo = s.noticeNo
  links : v.counters.links = s.counters.links
  proxyCounters : v.counters.proxy = s.counters.proxy
  exchangeCounters : v.counters.exchanges = s.counters.exchanges
  keyCounters : v.counters.keys = s.counters.keys

/-- What leaving HostUp does, said once (R57, R96, R168): `v` is `s` after liveness has moved. -/
theorem leaveHostUp_spec {s v : State} (same : SameHandOver s v) : LeavesHostUp s (leaveHostUp v.clock v) := by
  obtain ⟨hc, ht, hx, hf, hh, hp, hk, hu, hb, hn, h1, h2, h3, h4⟩ := same
  have hw : waitingByAge s.clock v = waitingByAge s.clock s := by simp only [waitingByAge, hx]
  obtain ⟨y, e, hy⟩ := foldl_expireExchange_withReplies s v ht (waitingByAge s.clock s) (nodup_waitingByAge s)
    (fun i hi => (mem_waitingByAge _ _ _).1 hi) s s.exchanges s.counters.exchanges (fun _ _ => rfl) rfl
  have hv : withReplies (withTracker s.exchanges s.counters.exchanges v) s = v := by
    simp only [withReplies, withTracker, ← hx, ← hf, ← hp, ← hk, ← h1, ← h2, ← h3]
  rw [hv] at e
  have el : leaveHostUp v.clock v = flushKeyQueue (bumpBy Ctr.exchangesExpiriesOnLeavingHostUp
      (waitingByAge s.clock s).length (withReplies (withTracker y (countExpiries (waitingByAge s.clock s).length
        ((waitingByAge s.clock s).map fun i => s.exchanges[i].retryCount).sum s.counters.exchanges) v)
          ((waitingByAge s.clock s).foldl (offerExpiryReply s) s))) := by
    rw [← e]; simp only [leaveHostUp, expireOnLeavingHostUp, hw, hc]
  rw [el]
  refine ⟨fun i => ?_, ⟨waitingByAge s.clock s, fun i => mem_waitingByAge _ _ _, pairwise_waitingByAge s,
    ⟨rfl, rfl, rfl, rfl⟩, ?_⟩, ?_, ?_, hh, hb, (foldl_offerExpiryReply_keyList s _ s), hn⟩
  · refine (hy i).trans ?_
    split
    · rfl
    · rename_i hi
      rw [mem_waitingByAge] at hi
      revert hi
      cases s.exchanges[i] <;> simp [Exchange.isWaiting]
  · ext i hi
    rcases i with _ | _ | _ | _ | _ | _ | _ | _ | _ | i <;>
      first
      | omega
      | simp [flushKeyQueue, bumpBy, withReplies, withTracker, countExpiries, Counters.set, Counters.get,
          Ctr.exchangesExpiries, Ctr.exchangesExpiriesOnLeavingHostUp, Ctr.exchangesRetriesBeforeExpiry,
          Ctr.keysEventsFlushed]
  · simp [flushKeyQueue, withReplies, withTracker, hu]
  · simp [flushKeyQueue, bumpBy, withReplies, withTracker, Counters.set, Counters.get, Ctr.keysEventsFlushed,
      Ctr.exchangesExpiriesOnLeavingHostUp, hu, h4]

/-! ### Blocking, as one statement -/

/-- What judging both channels does, said once (R124). -/
theorem blockNotAllowed_spec (s : State) : BlocksNotAllowed s (blockNotAllowed s) := by
  have hA : ∀ c d (u : State), heaterAllowed (blockIfNotAllowed c u) d = heaterAllowed u d := by
    intro c d u
    unfold blockIfNotAllowed
    split <;> rfl
  have hB : ((blockIfNotAllowed .board s).heat.channel .glass).blocked = (s.heat.channel .glass).blocked := by
    unfold blockIfNotAllowed
    split <;> rfl
  have hG : blockNotAllowed s =
      if heaterAllowed s .glass || (s.heat.channel .glass).blocked then blockIfNotAllowed .board s
      else setBlocked .glass (blockIfNotAllowed .board s) := by
    unfold blockNotAllowed
    rw [blockIfNotAllowed, hA, hB]
  unfold BlocksNotAllowed
  simp only [show ∀ d, heaterAllowed (blockNotAllowed s) d = heaterAllowed s d from fun d => by
    unfold blockNotAllowed; rw [hA, hA]]
  rw [hG, blockIfNotAllowed]
  simp only [← Bool.not_or]
  cases heaterAllowed s .board || (s.heat.channel .board).blocked <;>
    cases heaterAllowed s .glass || (s.heat.channel .glass).blocked <;> exact ⟨rfl, rfl⟩

/-- It is the same for a state with the same heaters and the same counters of their group. -/
theorem BlocksNotAllowed.of_same {s v t : State} (h : BlocksNotAllowed v t) (hh : v.heat = s.heat)
    (hc : v.counters.thermal = s.counters.thermal) : BlocksNotAllowed s t := by
  obtain ⟨h1, h2⟩ := h
  refine ⟨by rw [h1, hh], h2.trans ?_⟩
  rw [hh]
  split <;> split <;>
    simp [bump, bumpBy, Counters.set, Counters.get, Ctr.thermalBoardBlocks, Ctr.thermalGlassBlocks, hc]

/-- A channel's judging changes only the heaters and the counters of their group. -/
theorem blockNotAllowed_frame (s : State) : SameHandOver s (blockNotAllowed s) ∧ (blockNotAllowed s).live = s.live := by
  have h : ∀ c u, SameHandOver u (blockIfNotAllowed c u) ∧ (blockIfNotAllowed c u).live = u.live := by
    intro c u
    unfold blockIfNotAllowed
    split
    · exact ⟨⟨rfl, rfl, rfl, rfl, rfl, rfl, rfl, rfl, rfl, rfl, rfl, rfl, rfl, rfl⟩, rfl⟩
    · cases c <;> exact ⟨⟨rfl, rfl, rfl, rfl, rfl, rfl, rfl, rfl, rfl, rfl, rfl, rfl, rfl, rfl⟩, rfl⟩
  obtain ⟨a, ha⟩ := h .board s
  obtain ⟨b, hb⟩ := h .glass (blockIfNotAllowed .board s)
  exact ⟨⟨b.1.trans a.1, b.2.trans a.2, b.3.trans a.3, b.4.trans a.4, b.5.trans a.5, b.6.trans a.6, b.7.trans a.7,
    b.8.trans a.8, b.9.trans a.9, b.10.trans a.10, b.11.trans a.11, b.12.trans a.12, b.13.trans a.13,
    b.14.trans a.14⟩, hb.trans ha⟩

/-- What a change of liveness does to the exchanges and the keys, said once (R57, R96, R168). -/
theorem enterState_hostUpHandOver {s v : State} (st : Liveness) (tm : Option Timer) (t : Instant)
    (same : SameHandOver s v) (hl : v.live.state = s.live.state) :
    HostUpHandOver s (enterState st tm t v) := by
  have hst : hostUp (enterState st tm t v) = st.isHostUp := congrArg Liveness.isHostUp (enterState_state st tm t v)
  have hs : hostUp s = v.live.state.isHostUp := congrArg Liveness.isHostUp hl.symm
  let w : State := { v with live := { v.live with state := st, enteredAt := t.sec, timer := tm } }
  let x : State := if st.isPowered && !v.live.state.isPowered then hostPowerOn w else w
  have hx : SameHandOver s x := by
    have hw : SameHandOver s w := ⟨same.1, same.2, same.3, same.4, same.5, same.6, same.7, same.8, same.9, same.10,
      same.11, same.12, same.13, same.14⟩
    have b := (blockNotAllowed_frame { w with live := { w.live with bootTime := none } }).1
    simp only [x]
    split
    · exact ⟨b.1.trans hw.1, b.2.trans hw.2, b.3.trans hw.3, b.4.trans hw.4, b.5.trans hw.5, b.6.trans hw.6,
        b.7.trans hw.7, b.8.trans hw.8, b.9.trans hw.9, b.10.trans hw.10, b.11.trans hw.11, b.12.trans hw.12,
        b.13.trans hw.13, b.14.trans hw.14⟩
    · exact hw
  have he : enterState st tm t v = if v.live.state.isHostUp && !st.isHostUp then leaveHostUp x.clock x else x := rfl
  unfold HostUpHandOver
  rw [hst, hs, he]
  cases h1 : v.live.state.isHostUp <;> cases h2 : st.isHostUp <;>
    simp only [Bool.not_true, Bool.not_false, Bool.and_true, Bool.and_false, and_true, and_false, if_true, if_false,
      reduceCtorEq, Bool.false_eq_true]
  all_goals first
    | exact leaveHostUp_spec hx
    | exact ⟨hx.exchanges, hx.keyUnit, hx.fieldPort, hx.proxy, hx.exchangeCounters, hx.proxyCounters, hx.keyCounters⟩

/-- Leaving HostUp touches neither the heaters nor what is counted of them (R96). -/
theorem leaveHostUp_thermal (v : State) :
    (leaveHostUp v.clock v).heat = v.heat ∧ (leaveHostUp v.clock v).counters.thermal = v.counters.thermal := by
  obtain ⟨y, e, -⟩ := foldl_expireExchange_withReplies v v rfl (waitingByAge v.clock v) (nodup_waitingByAge v)
    (fun i hi => (mem_waitingByAge _ _ _).1 hi) v v.exchanges v.counters.exchanges (fun _ _ => rfl) rfl
  rw [show withReplies (withTracker v.exchanges v.counters.exchanges v) v = v from rfl] at e
  have el : leaveHostUp v.clock v = flushKeyQueue (bumpBy Ctr.exchangesExpiriesOnLeavingHostUp _ _) :=
    congrArg (fun x => flushKeyQueue (bumpBy Ctr.exchangesExpiriesOnLeavingHostUp (waitingByAge v.clock v).length x)) e
  rw [el]
  exact ⟨rfl, rfl⟩

/-- What a change of liveness does to the heaters, said once (R76, R124). -/
theorem enterState_powerHandOver {s v : State} (st : Liveness) (tm : Option Timer) (t : Instant)
    (hh : v.heat = s.heat) (hc : v.counters.thermal = s.counters.thermal)
    (hl : v.live.state = s.live.state) : PowerHandOver s (enterState st tm t v) := by
  have hst : hostPowerEnable (enterState st tm t v) = st.isPowered :=
    congrArg Liveness.isPowered (enterState_state st tm t v)
  have hs : hostPowerEnable s = v.live.state.isPowered := congrArg Liveness.isPowered hl.symm
  let w : State := { v with live := { v.live with state := st, enteredAt := t.sec, timer := tm } }
  unfold PowerHandOver
  rw [hst, hs]
  split
  · rename_i h
    have hup : v.live.state.isHostUp = false := by
      revert h; cases v.live.state <;> simp [Liveness.isPowered, Liveness.isHostUp]
    have he : enterState st tm t v = blockNotAllowed { w with live := { w.live with bootTime := none } } := by
      unfold enterState
      simp only [h.1, h.2, hup]
      rfl
    rw [he]
    exact (blockNotAllowed_spec _).of_same hh hc
  · rename_i h
    have he : enterState st tm t v =
        if v.live.state.isHostUp && !st.isHostUp then leaveHostUp w.clock w else w := by
      have : (st.isPowered && !v.live.state.isPowered) = false := by
        revert h; cases v.live.state.isPowered <;> cases st.isPowered <;> simp
      unfold enterState
      simp only [this]
      rfl
    rw [he]
    split
    · exact ⟨(leaveHostUp_thermal w).1.trans hh, (leaveHostUp_thermal w).2.trans hc⟩
    · exact ⟨hh, hc⟩

end Sys2Proof.Machine
end

