-- ==== Sys2Proof/Laws/Commands.lean ====
section
/-! SUPPORT. What a command can do, said once: the events and the management commands by the acts they end in, and,
for a property that every part of a command keeps (`Kept`), that every command keeps it. -/

namespace Sys2Proof.Machine

/-! ### The kinds of command -/

/-- A management command: a row that carries out a command frame (R177). -/
def IsManagement (i : Instr) : Prop :=
  ∃ p, i ∈ [Instr.status p, .readEntry p, .writeEntry p, .commit p, .discard p, .writeProxy p, .setFlags p, .feed p,
    .hostRestart p, .hostPowerOff p, .hostRelease p, .readLog p, .clearLog p, .readCounters p, .learnAirflow p,
    .freeze p, .supervisorReset p]

/-- An event: a command that is neither a management command nor one of the two resets. -/
def IsEvent (i : Instr) : Prop := ¬IsManagement i ∧ i ≠ .powerOnReset ∧ i ≠ .resetLineReset

/-- A command is a management command, an event, or one of the two resets. -/
theorem command_kinds (i : Instr) : IsManagement i ∨ IsEvent i ∨ i = .powerOnReset ∨ i = .resetLineReset := by
  cases i <;> simp [IsManagement, IsEvent]

/-! ### What commands can do -/

/-- What a row of the Management Unit can do: nothing, or take a command up and answer it (R177). -/
theorem serve_cases (P : State → Prop) (code k p act) (s : State) (h0 : P s) (hreply : ∀ code c r d u, P u →
    P (replyTo code c r d u))
  (hw : ∀ w, P { s with mgmt.waiting := w })
  (hact : ∀ c w, P ((act c { s with mgmt.waiting := w }).state)) : P (serve code k p act s) := by
  unfold serve
  split
  · rename_i c s' h
    have hs : ∃ w, s' = { s with mgmt.waiting := w } := by
      unfold takeCommand at h
      split at h
      · split at h
        · simp only [Option.some.injEq, Prod.mk.injEq] at h
          exact ⟨_, h.2.symm⟩
        · simp at h
      · simp at h
    obtain ⟨w, rfl⟩ := hs
    unfold replyAnswer
    apply hreply
    unfold answerCommand
    split
    · exact hw w
    · exact hact c w
  · exact h0

/-- A command of a fixed length is carried out or answered BadArgument. -/
theorem withLength_cases (P : State → Prop) (n act c) (s : State) (h0 : P s) (h : P (act c s).state)
    : P (withLength n act c s).state := by
  unfold withLength; split
  · exact h
  · exact h0

/-- What the management commands can do, one hypothesis for each kind of effect (R177 to R190). -/
theorem management_cases (P : State → Prop) (i : Instr) (s : State) 
  (hreply : ∀ code c r d u, P u → P (replyTo code c r d u))
  (h0 : P s) (hw : ∀ w, P { s with mgmt.waiting := w })
  (hread : ∀ w g a b, P (clearCounters g a b { s with mgmt.waiting := w }))
  (htab : ∀ w t, (∃ a b c d, writeStaging a b c s.tables = some (t, d)) ∨ (∃ a, discardStaging a s.tables = some t)
      → P { s with mgmt.waiting := w, tables := t })
  (hcommit : ∀ w t, P (swapTable t { s with mgmt.waiting := w }))
  (hstore : ∀ t u, P u → P (startStoreWrite t u))
  (hpw : ∀ w e pl t, inactivePinned e { s with mgmt.waiting := w } = false →
      P (bump Ctr.proxyProxyWrites (fillInactive e pl t { s with mgmt.waiting := w })))
  (hpb : ∀ w, P (bump Ctr.proxyBusyProxyWrites { s with mgmt.waiting := w }))
  (hflags : ∀ w p, P (patternFlags p { s with mgmt.waiting := w }))
  (hfeed : ∀ w c, P (doFeed c { s with mgmt.waiting := w }).state)
  (hrestart : ∀ w b t, hostPowerEnable s = true →
      P (uncountedRestart .managementCommand b t { s with mgmt.waiting := w }))
  (hoff : ∀ w c, P (doHostPowerOff c { s with mgmt.waiting := w }).state)
  (hrel : ∀ w t, (∃ p, i = .hostRelease p) → s.live.state.isReleasable = true →
      P (releaseHost t { s with mgmt.waiting := w }))
  (hclear : ∀ w, P { s with mgmt.waiting := w, log.records := [] })
  (hlearn : ∀ w t, (boardMinusAir s).isSome = true → P (startLearn t { s with mgmt.waiting := w }))
  (hfreeze : ∀ w, P { s with mgmt := { s.mgmt with waiting := w, frozen := true } })
  (hreset : ∀ w c, (∃ p, i = .supervisorReset p) → P (requestReset c { s with mgmt.waiting := w }))
  (t : State) (ht : exec i s = .next t) (hi : IsManagement i) : P t := by
  obtain ⟨p, hi⟩ := hi
  simp only [List.mem_cons, List.not_mem_nil, or_false] at hi
  rcases hi with rfl | rfl | rfl | rfl | rfl | rfl | rfl | rfl | rfl | rfl | rfl | rfl | rfl | rfl | rfl | rfl | rfl
  case inr.inr.inr.inr.inr.inr.inr.inr.inr.inr.inr.inr.inr.inr.inr.inr =>
    simp only [exec, execSupervisorReset, Host.Outcome.next.injEq] at ht
    subst ht
    split
    · rename_i c s' h
      have hs : ∃ w, s' = { s with mgmt.waiting := w } := by
        unfold takeCommand at h
        split at h
        · split at h
          · simp only [Option.some.injEq, Prod.mk.injEq] at h
            exact ⟨_, h.2.symm⟩
          · simp at h
        · simp at h
      obtain ⟨w, rfl⟩ := hs
      unfold doSupervisorReset
      split
      · exact hreply _ _ _ _ _ (hw w)
      · split
        · exact hreply _ _ _ _ _ (hw w)
        · split
          · exact hreply _ _ _ _ _ (hw w)
          · exact hreset w c ⟨p, rfl⟩
    · exact h0
  all_goals
    simp only [exec, execStatus, execReadEntry, execWriteEntry, execCommit, execDiscard, execWriteProxy,
        execSetFlags, execFeed, execHostRestart, execHostPowerOff, execHostRelease, execReadLog, execClearLog,
        execReadCounters, execLearnAirflow, execFreeze, Host.Outcome.next.injEq] at ht
    subst ht
    refine serve_cases P _ _ _ _ s h0 hreply hw ?_
    intro c w
  · refine withLength_cases P _ _ _ _ (hw w) ?_
    unfold doStatus; split <;> exact hw w
  · refine withLength_cases P _ _ _ _ (hw w) ?_
    unfold doReadEntry; (repeat' split) <;> exact hw w
  · unfold doWriteEntry
    split
    · split
      · rename_i tb cl hws
        exact htab w tb (Or.inl ⟨_, _, _, _, hws⟩)
      · exact hw w
    · exact hw w
  · refine withLength_cases P _ _ _ _ (hw w) ?_
    unfold doCommit; dsimp only
    split
    · split
      · exact hw w
      · split
        · exact hw w
        · dsimp only [done]; split
          · exact hstore _ _ (hcommit _ _)
          · exact hcommit _ _
    · exact hw w
  · refine withLength_cases P _ _ _ _ (hw w) ?_
    unfold doDiscard; split
    · rename_i tb hd; exact htab w tb (Or.inr ⟨_, hd⟩)
    · exact hw w
  · unfold doWriteProxy
    split
    · dsimp only; split
      · split
        · exact hpb w
        · rename_i hn; exact hpw w _ _ _ (by simpa using hn)
      · exact hw w
    · exact hw w
  · refine withLength_cases P _ _ _ _ (hw w) ?_
    exact hflags w _
  · refine withLength_cases P _ _ _ _ (hw w) ?_
    exact hfeed w c
  · refine withLength_cases P _ _ _ _ (hw w) ?_
    unfold doHostRestart; split
    · split
      · rename_i hh; exact hrestart w _ _ hh
      · exact hw w
    · exact hw w
  · refine withLength_cases P _ _ _ _ (hw w) ?_
    exact hoff w c
  · refine withLength_cases P _ _ _ _ (hw w) ?_
    unfold doHostRelease; split
    · rename_i hh; exact hrel w _ ⟨p, rfl⟩ hh
    · exact hw w
  · refine withLength_cases P _ _ _ _ (hw w) ?_
    unfold doReadLog; split <;> exact hw w
  · refine withLength_cases P _ _ _ _ (hw w) ?_
    unfold doClearLog; split
    · exact hw w
    · exact hclear w
  · refine withLength_cases P _ _ _ _ (hw w) ?_
    unfold doReadCounters; split
    · dsimp only; split
      · dsimp only [done]; split
        · exact hread w _ _ _
        · exact hw w
      · exact hw w
    · exact hw w
  · refine withLength_cases P _ _ _ _ (hw w) ?_
    unfold doLearnAirflow; split
    · exact hw w
    · split
      · rename_i hh; exact hlearn w _ hh
      · exact hw w
  · refine withLength_cases P _ _ _ _ (hw w) ?_
    exact hfreeze w

/-- What the other commands can do, one hypothesis for each event that acts. -/
theorem event_cases (P : State → Prop) (i : Instr) (s : State) (h0 : P s)
  (hchar : ∀ p e u, P u → P (receive p e u))
  (hcomp : ∀ p, P (completeFrame p s))
  (hasm : ∀ p a, P (setAssembler p a s))
  (hdropf : ∀ p b a id, P (dropFilling p b a id s))
  (hhost : ∀ b r, s.hostPort.sending = none → s.hostPort.queue = b :: r → P (startHostSending b r s))
  (hfield : ∀ b r, s.fieldPort.sending = none → s.fieldPort.queue = b :: r → P (startFieldSending b r s))
  (hfh : ∀ x, s.hostPort.sending = some x → i = .transmissionComplete .host → P (finishHost x.buffer s))
  (hff : ∀ x, s.fieldPort.sending = some x → i = .transmissionComplete .field → P (finishField x.item s))
  (hrate : ∀ p r, P (setRx p { s.rx p with rate := r } s))
  (hexp : ∀ e h t, P (expireExchange e h t s))
  (hlate : ∀ e r hold, s.exchanges[e] = .late r hold → P (setExchange e .free s))
  (hboot : (s.live.state = .powering ∨ s.live.state = .resetting) → P (enterBooting s.clock s))
  (hcr : ∀ c, (s.live.state = .booting ∨ s.live.state = .warned) → P (countedRestart c s.clock s))
  (hwarn : s.live.state = .running → P (enterWarned s.clock s))
  (hpow : s.live.state = .cycling → P (enterPowering s.clock s))
  (hcold : s.live.state = .cycling → P (enterColdHold s.clock s))
  (hstop : s.live.state = .stopping → P (finishStop s.clock s))
  (htemp : ∀ b g a, P (handOverThermal { s with temp.lastSample := s.temp.lastSample }
      (sampleChannels b g a { s with temp.lastSample := s.temp.lastSample + 100 }).clock (evaluateHot
      (evaluateReadiness (sampleChannels b g a { s with temp.lastSample := s.temp.lastSample + 100 }).clock
      (sampleChannels b g a { s with temp.lastSample := s.temp.lastSample + 100 })))))
  (hdwell : P (leaveColdHold s.clock (setReadiness .ready none s)))
  (hdem : P (takeDemand s))
  (hbound : P (fanBoundary (heaterBoundary s)))
  (htach : P { s with fan.pulses := s.fan.pulses + 1 })
  (hact : P (activateCutoff s))
  (hrel : P { s with heat.cutoffLine := false })
  (hlearn : ∀ d, P (completeLearn d s))
  (hkey : ∀ raw, P (updateChords s.clock (handOverOutcomes (scanSample raw (nextKeypadSample s)).2 s.clock
      (scanSample raw (nextKeypadSample s)).1)))
  (hrep : ∀ p r e b, P (composeKeyNotices (deliver e b s.clock (bump Ctr.keysRepeatEvents (setRecord p r s)))))
  (hchord : ∀ c, i = .chordFire c → P (fireChord c s.clock s))
  (hperm : P { s with mgmt.permit := none })
  (hstore : ∀ j, s.store.writing = some j →
      P { s with store := finishWrite j s.store, mgmt.defaultsInUse := clearMark j.id s.mgmt.defaultsInUse })
  (hstep : ∀ n, P { s with heat := placeOutputs n s.heat })
  (t : State) (ht : exec i s = .next t) (hi : IsEvent i) : P t := by
  obtain ⟨hi, hi2, hi3⟩ := hi
  unfold IsManagement at hi
  have due_state : ∀ st, livenessTimerDue st s = true → s.live.state = st := by
    intro st h; simp [livenessTimerDue] at h; exact h.1
  cases i <;> simp at hi hi2 hi3 <;> simp only [exec, Host.Outcome.next.injEq, execReceiveCharacter,
      execSkipTimeout, execGapError, execFrameComplete, execHostTransmitStart, execFieldTransmitStart,
      execTransmissionComplete, execRateChangeApply, execPowerSettleExpiry, execBootGraceExpiry,
      execWindowMaxExpiry, execWarnGraceExpiry, execResetPulseExpiry, execCycleOffExpiry, execStopDelayExpiry,
      execTemperatureSample, execDwellExpiry, execDemandEvent, execHeatBoundary, execTachPulse, execCutoffActive,
      execCutoffRelease, execLearnComplete, execKeypadSample, execRepeatExpiry, execChordFire, execPermitExpiry,
      execStoreWriteComplete, execHeatStep] at ht <;> (try subst ht)
  case receiveCharacter => split; exacts [h0, hchar _ _ _ (hcomp _)]
  case skipTimeout => split; exacts [hasm _ _, h0]
  case gapError => (repeat' split) <;> first | exact h0 | exact hdropf _ _ _ _
  case frameComplete => exact hcomp _
  case hostTransmitStart => split; exacts [hhost _ _ (by assumption) (by assumption), h0]
  case fieldTransmitStart => (repeat' split) <;> first | exact h0 | exact hfield _ _ (by assumption) (by assumption)
  case transmissionComplete p => cases p <;> dsimp only <;> split <;> first
      | exact h0
      | exact hfh _ (by assumption) rfl
      | exact hff _ (by assumption) rfl
  case rateChangeApply => split; exacts [h0, hrate _ _]
  case exchangeDeadlineExpiry e =>
    unfold execExchangeDeadlineExpiry at ht
    split at ht
    · split at ht <;> (cases ht) <;> first | exact h0 | exact hexp _ _ _
    · cases ht; exact h0
  case lateHoldExpiry e =>
    unfold execLateHoldExpiry at ht
    split at ht
    · rename_i hold heq
      split at ht <;> (cases ht) <;> first | exact h0 | exact hlate _ _ _ heq
    · cases ht; exact h0
  case powerSettleExpiry => split; exacts [hboot (Or.inl (due_state _ (by assumption))), h0]
  case bootGraceExpiry => split; exacts [hcr _ (Or.inl (due_state _ (by assumption))), h0]
  case windowMaxExpiry => split; exacts [hwarn (due_state _ (by assumption)), h0]
  case warnGraceExpiry => split; exacts [hcr _ (Or.inr (due_state _ (by assumption))), h0]
  case resetPulseExpiry => split; exacts [hboot (Or.inr (due_state _ (by assumption))), h0]
  case cycleOffExpiry =>
    split
    · rename_i hd
      split; exacts [hpow (due_state _ hd), hcold (due_state _ hd)]
    · exact h0
  case stopDelayExpiry => split; exacts [hstop (due_state _ (by assumption)), h0]
  case temperatureSample => split; exacts [htemp _ _ _, h0]
  case dwellExpiry => split; exacts [hdwell, h0]
  case demandEvent => split; exacts [hdem, h0]
  case heatBoundary => split; exacts [hbound, h0]
  case tachPulse => exact htach
  case cutoffActive => split; exacts [h0, hact]
  case cutoffRelease => exact hrel
  case learnComplete => (repeat' split) <;> first | exact h0 | exact hlearn _
  case keypadSample => split; exacts [hkey _, h0]
  case repeatExpiry => (repeat' split) <;> first | exact h0 | exact hrep _ _ _ _
  case chordFire => (repeat' split) <;> first | exact h0 | exact hchord _ rfl
  case permitExpiry => split; exacts [hperm, h0]
  case storeWriteComplete => split; exacts [hstore _ (by assumption), h0]
  case heatStep => split; exacts [hstep _, h0]

/-- What the scanner leaves alone: whatever the keypad, a counter and a happening leave alone. -/
theorem scanSample_keeps {β : Type} (g : State → β) (raw s) (h1 : ∀ u (k : Keypad), g { u with keypad := k } = g u)
    (h2 : ∀ id n u, g (bumpBy id n u) = g u) (h3 : ∀ p h u, g (reportHappening p h u) = g u)
    : g (scanSample raw (nextKeypadSample s)).1 = g s := by
  have hn : g (noteSet (chooseSet (nextKeypadSample s)) (nextKeypadSample s)) = g s := by
    unfold noteSet; dsimp only; (repeat' split) <;> simp only [bump, h2, h1, nextKeypadSample]
  simp only [scanSample]
  split
  · rw [← hn]; simp only [feedQuietRun]; (repeat' split) <;> simp only [h1]
  · split
    · rw [← hn]; simp only [enterFlood, bump, h2, h1]
    · rw [← hn]; simp only [handleKeys]
      rw [foldl_keeps g _ (fun s p => h3 _ _ _)]; simp only [h1]

/-! ### A property that every part keeps -/

/-- A property of states that each elementary change of a command keeps, under what holds where the change is
made. -/
structure Kept (P : State → Prop) : Prop where
  other : ∀ (u : State) pool counters noticeNo flags temp fan keypad mgmt, P u →
      P { u with pool := pool, counters := counters, noticeNo := noticeNo, flags := flags, temp := temp, fan := fan, keypad := keypad, mgmt := mgmt }
  unit : ∀ (u : State) r c, P u → P { u with keyUnit := { u.keyUnit with records := r, chords := c } }
  hostJoins : ∀ (u : State) b, u.hostPort.queue.length < 16 → P u →
      P { u with hostPort.queue := u.hostPort.queue ++ [b] }
  fieldJoins : ∀ (u : State) i, u.fieldPort.queue.length < 16 → P u →
      P { u with fieldPort.queue := u.fieldPort.queue ++ [i] }
  rx : ∀ p r u, P u → P (setRx p r u)
  keysTaken : ∀ u : State, hostUp u = true → P u → P { u with keyUnit.queue := u.keyUnit.queue.drop 8 }
  flushed : ∀ u : State, P u → P { u with keyUnit := { u.keyUnit with queue := [], lossPending := false } }
  composed : ∀ a b c d e u, P u → P (composeReply a b c d e u)
  keyCopy : ∀ a b c u, hostUp u = false → P u → P (offerReply (copyKeyList a b c u).1 (copyKeyList a b c u).2)
  captured : ∀ a b c u, P u → P (capture a b c u)
  opened : ∀ u e tag topic t, waitingWith tag u = none → exchangeFor tag u = some e → P u →
      P (openExchange e tag topic t u)
  absorbed : ∀ e u, P u → P (absorbRetry e u)
  freed : ∀ e u, P u → P (setExchange e .free u)
  expired : ∀ e h t u, P u → P (expireExchange e h t u)
  hits : ∀ (u : State) h, P u → P { u with tables.hits := h }
  livef : ∀ (u : State) a b c d e f g, P u →
      P { u with live := { u.live with enteredAt := a, timer := b, lastHeartbeat := c, bootTime := d, failedRestarts := e, lateReplies := f, earlyStreak := g } }
  accepted : ∀ t u, u.live.state.hears = true → P u → P (acceptHeartbeat t u)
  logged : ∀ (u : State) r, P u → P { u with log := u.log.append r }
  entered : ∀ st x t u, st.isHostUp = false → P u → P (enterState st x t u)
  warned : ∀ x t u, u.live.state = .running → P u → P (enterState .warned x t u)
  aged : ∀ t u, P u → P (ageBudget t u)
  charged : ∀ (u : State) x, u.live.budget.length < (settings u).maxRestarts.toNat → P u →
      P { u with live.budget := u.live.budget ++ [x] }
  budget0 : ∀ (u : State), P u → P { u with live.budget := [] }
  emptyLog : ∀ u : State, P u → P { u with log.records := [] }
  heat : ∀ (u : State) h, h.board.integrator = u.heat.board.integrator →
      h.glass.integrator = u.heat.glass.integrator → P u → P { u with heat := h }
  demand : ∀ u, P u → P (takeDemand u)
  filled : ∀ e p t u, inactivePinned e u = false → P u → P (fillInactive e p t u)
  tabs : ∀ (u : State) t, ((∃ a b c d, writeStaging a b c u.tables = some (t, d)) ∨ (∃ a,
      discardStaging a u.tables = some t)) → P u → P { u with tables := t }
  swapped : ∀ t u, P u → P (swapTable t u)
  storing : ∀ t u, P u → P (startStoreWrite t u)
  stored : ∀ (u : State) j, u.store.writing = some j → P u → P { u with store := finishWrite j u.store }
  learned : ∀ (u : State) d, P u →
      P { u with tables.settings := ⟨learnedInto (clampInt (-1000) 1000 d) u.tables.settings.live, learnedInto (clampInt (-1000) 1000 d) u.tables.settings.staging⟩ }
  offered : ∀ e u, hostUp u = true → P u → P (offerKeyEvent e u)
  listed : ∀ c t u, hostUp u = false → P u → P (offerFieldKey c t u)
  sendHost : ∀ (u : State) x b r, u.hostPort.queue = b :: r → P u →
      P { u with hostPort := { u.hostPort with sending := x, queue := r } }
  sendField : ∀ (u : State) x b r, u.fieldPort.queue = b :: r → P u →
      P { u with fieldPort := { u.fieldPort with sending := x, queue := r } }
  endHost : ∀ (u : State), P u → P { u with hostPort.sending := none }

/-- A fold keeps what its step keeps. -/
theorem foldl_kept {P : State → Prop} {α} (f : State → α → State) (hf : ∀ u a, P u → P (f u a)) (l : List α) (u)
    (h : P u) : P (l.foldl f u) := by
  induction l generalizing u with
  | nil => exact h
  | cons a l ih => exact ih _ (hf _ _ h)

variable {P : State → Prop} (K : Kept P)
include K

theorem pool_kept (u p) (h : P u) : P { u with pool := p } :=
    K.other u p u.counters u.noticeNo u.flags u.temp u.fan u.keypad u.mgmt h

theorem setBuffer_kept (b f u) (h : P u) : P (setBuffer b f u) := pool_kept K _ _ h

theorem bumpBy_kept (i n u) (h : P u) : P (bumpBy i n u) :=
    K.other u u.pool _ u.noticeNo u.flags u.temp u.fan u.keypad u.mgmt h

theorem bump_kept (i u) (h : P u) : P (bump i u) := bumpBy_kept K _ _ _ h

theorem noticeNo_kept (u n) (h : P u) : P { u with noticeNo := n } :=
    K.other u u.pool u.counters n u.flags u.temp u.fan u.keypad u.mgmt h

theorem flags_kept (u n) (h : P u) : P { u with flags := n } :=
    K.other u u.pool u.counters u.noticeNo n u.temp u.fan u.keypad u.mgmt h

theorem temp_kept (u n) (h : P u) : P { u with temp := n } :=
    K.other u u.pool u.counters u.noticeNo u.flags n u.fan u.keypad u.mgmt h

theorem fan_kept (u n) (h : P u) : P { u with fan := n } :=
    K.other u u.pool u.counters u.noticeNo u.flags u.temp n u.keypad u.mgmt h

theorem keypad_kept (u n) (h : P u) : P { u with keypad := n } :=
    K.other u u.pool u.counters u.noticeNo u.flags u.temp u.fan n u.mgmt h

theorem mgmt_kept (u n) (h : P u) : P { u with mgmt := n } :=
    K.other u u.pool u.counters u.noticeNo u.flags u.temp u.fan u.keypad n h

theorem enqueueHost_kept (b u) (hr : hostQueueRoom u = true) (h : P u) : P (enqueueHost b u) := by
  unfold enqueueHost; dsimp only
  refine K.hostJoins (setBuffer b _ u) b ?_ (setBuffer_kept K _ _ _ h)
  simpa [hostQueueRoom] using hr

theorem enqueueFieldBuffer_kept (b u) (hr : fieldQueueRoom u = true) (h : P u) : P (enqueueFieldBuffer b u) := by
  unfold enqueueFieldBuffer; dsimp only
  refine K.fieldJoins (setBuffer b _ u) _ ?_ (setBuffer_kept K _ _ _ h)
  simpa [fieldQueueRoom] using hr

theorem queueNotice_kept (b t p u) (hr : hostQueueRoom u = true) (h : P u) : P (queueNotice b t p u) := by
  unfold queueNotice; dsimp only
  apply noticeNo_kept K
  apply enqueueHost_kept K
  · rw [hostQueueRoom_iff] at hr ⊢; exact hr
  · exact setBuffer_kept K _ _ _ h

theorem composeNotice_kept (t p u) (h : P u) : P (composeNotice t p u) := by
  unfold composeNotice; split
  · split
    · rename_i hr; exact queueNotice_kept K _ _ _ _ hr h
    · exact bump_kept K _ _ (noticeNo_kept K _ _ h)
  · exact h

theorem composeKeyNotice_kept (u) (hr : keyNoticeReady u = true) (h : P u) : P (composeKeyNotice u) := by
  unfold keyNoticeReady at hr; simp only [Bool.and_eq_true] at hr
  unfold composeKeyNotice; split
  · dsimp only
    apply bump_kept K; apply queueNotice_kept K
    · exact hr.2
    · exact K.keysTaken _ hr.1.1.1 h
  · exact h

theorem composeKeyNotices_kept (u) (h : P u) : P (composeKeyNotices u) := by
  unfold composeKeyNotices
  generalize u.keyUnit.queue.length = n
  induction n generalizing u with
  | zero => exact h
  | succ n ih =>
    unfold keyNoticeTurns; split
    · apply ih; exact composeKeyNotice_kept K _ (by assumption) h
    · exact h

theorem releaseBuffer_kept (b u) (h : P u) : P (releaseBuffer b u) :=
    composeKeyNotices_kept K _ (setBuffer_kept K _ _ _ h)

theorem replyTo_kept (a c r d u) (h : P u) : P (replyTo a c r d u) := by
  unfold replyTo; split
  · rename_i hr
    unfold enqueueReplyBuffer; unfold replyQueueRoom at hr
    split
    · rename_i hp; rw [hp] at hr
      apply enqueueHost_kept K
      · rw [hostQueueRoom_iff] at hr ⊢; exact hr
      · exact setBuffer_kept K _ _ _ h
    · rename_i hp; rw [hp] at hr
      apply enqueueFieldBuffer_kept K
      · rw [fieldQueueRoom_iff] at hr ⊢; exact hr
      · exact setBuffer_kept K _ _ _ h
  · exact releaseBuffer_kept K _ _ (bump_kept K _ _ h)

theorem trafficHeartbeat_kept (t u) (h : P u) : P (trafficHeartbeat t u) := by
  unfold trafficHeartbeat; split
  · rename_i hh; simp at hh; exact bump_kept K _ _ (K.accepted _ _ hh.2 h)
  · exact h

theorem exchangeFull_kept (f u) (h : P u) : P (exchangeFull f u) :=
    releaseBuffer_kept K _ _ (bump_kept K _ _ (K.composed _ _ _ _ _ _ h))

theorem forwardRequest_kept (f u) (hw : waitingWith f.tag u = none) (h : P u) : P (forwardRequest f u) := by
  unfold forwardRequest; split
  · rename_i e he
    split
    · rename_i hr
      apply K.opened
      · simpa [waitingWith] using hw
      · simpa [exchangeFor, lateWith, freeExchange] using he
      · exact enqueueHost_kept K _ _ hr h
    · exact exchangeFull_kept K _ _ h
  · exact exchangeFull_kept K _ _ h

theorem forwardBroadcast_kept (f u) (h : P u) : P (forwardBroadcast f u) := by
  unfold forwardBroadcast; split
  · exact enqueueHost_kept K _ _ (by assumption) h
  · exact releaseBuffer_kept K _ _ (bump_kept K _ _ h)

theorem forwardReply_kept (f u) (h : P u) : P (forwardReply f u) := by
  unfold forwardReply; split
  · exact enqueueFieldBuffer_kept K _ _ (by assumption) h
  · exact releaseBuffer_kept K _ _ (bump_kept K _ _ h)

theorem routeAction_kept (e f u) (hw : f.isOwnRequest = true → waitingWith f.tag u = none) (h : P u)
    : P (routeAction e f u) := by
  unfold routeAction routeForward routeDrop routeAnswer dropUnforwardable
  (repeat' split) <;> first
      | exact forwardRequest_kept K _ _ (hw (by assumption)) h
      | exact forwardBroadcast_kept K _ _ h
      | exact forwardReply_kept K _ _ h
      | exact releaseBuffer_kept K _ _ (bump_kept K _ _ h)
      | exact releaseBuffer_kept K _ _ (K.composed _ _ _ _ _ _ h)

theorem offerBareReply_kept (a b c u) (h : P u) : P (offerBareReply a b c u) := by
  unfold offerBareReply offerReply; split
  · exact K.fieldJoins _ _ ((fieldQueueRoom_iff _).1 (by assumption)) h
  · exact bump_kept K _ _ h

theorem defaultHandling_kept (f u) (hw : f.isOwnRequest = true → waitingWith f.tag u = none) (h : P u)
    : P (defaultHandling f u) := by
  unfold defaultHandling defaultDrop; dsimp only
  (repeat' split) <;> first
      | exact forwardRequest_kept K _ _ (hw (by assumption)) h
      | exact forwardBroadcast_kept K _ _ h
      | exact forwardReply_kept K _ _ h
      | exact releaseBuffer_kept K _ _ (bump_kept K _ _ h)
      | exact releaseBuffer_kept K _ _ (offerBareReply_kept K _ _ _ _ (bump_kept K _ _ h))

theorem endMatched_kept (m u) (h : P u) : P (endMatched m u) := by
  unfold endMatched; split
  · exact bump_kept K _ _ (K.freed _ _ h)
  · exact h

theorem routeCapture_kept (e f u) (h : P u) : P (routeCapture e f u) := by
  unfold routeCapture; split
  · exact K.captured _ _ _ _ h
  · exact h

theorem routeByLookup_kept (f m s) (hw : f.isOwnRequest = true → waitingWith f.tag s = none) (h : P s)
    : P (routeByLookup f m s) := by
  simp only [routeByLookup]; split
  · have h1 : ∀ e i, P (endMatched m (routeAction e f (routeCapture e f (patternFlags
      s.tables.route.live[i].pattern (hit i s))))) := by
      intro e i
      apply endMatched_kept K; apply routeAction_kept K
      · intro ho; have := hw ho
        unfold waitingWith at this ⊢
        simpa [hit, patternFlags, Vector.getElem_set] using this
      · apply routeCapture_kept K; unfold patternFlags; apply flags_kept K; exact K.hits _ _ h
    unfold routeFeed; split
    · exact trafficHeartbeat_kept K _ _ (h1 _ _)
    · exact h1 _ _
  · exact endMatched_kept K _ _ (defaultHandling_kept K _ _ hw h)

theorem routeLate_kept (f r u) (h : P u) : P (routeLate f r u) := by
  simp only [routeLate]
  apply composeNotice_kept K
  have hl : ∀ v, P v → P (reportLateReply v) := fun v hv => K.livef v _ _ _ _ _ _ _ hv
  apply hl; apply bump_kept K; apply releaseBuffer_kept K
  split
  · exact routeCapture_kept K _ _ _ (K.hits _ _ h)
  · exact h

theorem routeFrame_kept (f s) (h : P s) : P (routeFrame f s) := by
  unfold routeFrame routeOwnRequest routeHostReply dropUnsolicited
  split
  · split
    · rename_i hk
      have hd : hostUp s = false := by unfold isKeyListRequest at hk; simp at hk; exact hk.2
      exact bump_kept K _ _ (releaseBuffer_kept K _ _ (K.keyCopy _ _ _ _ hd h))
    · split
      · exact releaseBuffer_kept K _ _ (K.absorbed _ _ h)
      · rename_i hw; exact routeByLookup_kept K _ _ _ (fun _ => hw) h
  · rename_i hno
    (repeat' split) <;> first
        | exact routeByLookup_kept K _ _ _ (fun ho => absurd ho hno) h
        | exact routeLate_kept K _ _ _ h
        | exact releaseBuffer_kept K _ _ (bump_kept K _ _ h)

theorem setAssembler_kept (p a u) (h : P u) : P (setAssembler p a u) := by unfold setAssembler; exact K.rx _ _ _ h

theorem completeFrame_kept (p s) (h : P s) : P (completeFrame p s) := by
  simp only [completeFrame, acceptFrame, rejectFrame, dispatchFrame, handToManagement, discardMisaddressed]
  split
  · have h0 : P (setAssembler p .idle s) := setAssembler_kept K _ _ _ h
    have h1 : ∀ (b : BufferId) f, P (bump (Ctr.validFrames p) (setBuffer b f (setAssembler p .idle s))) :=
        fun b f => bump_kept K _ _ (setBuffer_kept K _ _ _ (setAssembler_kept K _ _ _ h))
    (repeat' split) <;> first
        | exact mgmt_kept K _ _ (h1 _ _)
        | exact replyTo_kept K _ _ _ _ _ (h1 _ _)
        | exact releaseBuffer_kept K _ _ (bump_kept K _ _ (h1 _ _))
        | exact routeFrame_kept K _ _ (h1 _ _)
        | exact releaseBuffer_kept K _ _ (bump_kept K _ _ (setAssembler_kept K _ _ _ h))
  · exact h

theorem dropFilling_kept (p b a i u) (h : P u) : P (dropFilling p b a i u) :=
    releaseBuffer_kept K _ _ (bump_kept K _ _ (setAssembler_kept K _ _ _ h))

theorem startFrame_kept (p x u) (h : P u) : P (startFrame p x u) := by
  unfold startFrame beginFilling discardNoBuffer; dsimp only
  (repeat' split) <;> first
      | exact setAssembler_kept K _ _ _ h
      | exact setAssembler_kept K _ _ _ (bump_kept K _ _ h)
      | exact setAssembler_kept K _ _ _ (setBuffer_kept K _ _ _ h)

theorem takeCharacter_kept (p c u) (h : P u) : P (takeCharacter p c u) := by
  have h0 : P (restartSilence p u) := K.rx _ _ _ h
  simp only [takeCharacter, takeMarker, takePlain, takeBad, appendByte]
  (repeat' split) <;> first
      | exact h0
      | exact startFrame_kept K _ _ _ h0
      | exact startFrame_kept K _ _ _ (dropFilling_kept K _ _ _ _ _ h0)
      | exact dropFilling_kept K _ _ _ _ _ h0
      | exact bump_kept K _ _ h0
      | exact setAssembler_kept K _ _ _ (bump_kept K _ _ h0)
      | exact setBuffer_kept K _ _ _ h0

theorem receive_kept (p e u) (h : P u) : P (receive p e u) := by
  unfold receive; split
  · exact K.rx _ _ _ h
  · exact takeCharacter_kept K _ _ _ h

theorem live_kept (u : State) (l : LivenessController) (h1 : l.state = u.live.state) (h2 :
    l.budget = u.live.budget) (h : P u) : P { u with live := l } := by
  have := K.livef u l.enteredAt l.timer l.lastHeartbeat l.bootTime l.failedRestarts l.lateReplies l.earlyStreak h
  obtain ⟨a,b,c,d,e,f,g,i,j⟩ := l
  simp at h1 h2; subst h1 h2; exact this

theorem writeLog_kept (a b c t u) (h : P u) : P (writeLog a b c t u) := K.logged _ _ h

theorem leaveColdHold_kept (t u) (h : P u) : P (leaveColdHold t u) := by
  unfold leaveColdHold; split
  · exact K.entered _ _ _ _ rfl h
  · exact h

theorem enterColdHold_kept (t u) (h : P u) : P (enterColdHold t u) := by
  unfold enterColdHold; apply leaveColdHold_kept K
  exact temp_kept K _ _ (K.entered _ _ _ _ rfl h)

theorem enterBooting_kept (t u) (h : P u) : P (enterBooting t u) := by
  unfold enterBooting; exact live_kept K _ _ rfl rfl (K.entered _ _ _ _ rfl h)

theorem enterWarned_kept (t u) (hs : u.live.state = .running) (h : P u) : P (enterWarned t u) := by
  unfold enterWarned; exact bump_kept K _ _ (composeNotice_kept K _ _ _ (K.warned _ _ _ hs h))

theorem countedRestart_kept (c t u) (h : P u) : P (countedRestart c t u) := by
  have h1 := K.aged t u h
  simp only [countedRestart]
  generalize ageBudget t u = v at *
  split
  · exact bump_kept K _ _ (K.entered _ _ _ _ rfl (writeLog_kept K _ _ _ _ _ h1))
  · rename_i hb
    simp only [makeRestart]
    have h2 : P { v with live := { v.live with budget := v.live.budget ++ [t.sec], failedRestarts := satAdd v.live.failedRestarts 1 } } := by
      have h3 := K.charged v t.sec (by omega) h1
      exact live_kept K { v with live.budget := v.live.budget ++ [t.sec] }
          { v.live with budget := v.live.budget ++ [t.sec], failedRestarts := satAdd v.live.failedRestarts 1 }
          rfl rfl h3
    split <;> exact K.entered _ _ _ _ rfl (writeLog_kept K _ _ _ _ _ (bump_kept K _ _ h2))

theorem uncountedRestart_kept (c b t u) (h : P u) : P (uncountedRestart c b t u) := by
  unfold uncountedRestart; split <;> exact K.entered _ _ _ _ rfl (writeLog_kept K _ _ _ _ _ (bump_kept K _ _ h))

theorem releaseHost_kept (t u) (h : P u) : P (releaseHost t u) := by
  unfold releaseHost; split
  · exact enterColdHold_kept K _ _ h
  · apply enterColdHold_kept K
    exact live_kept K { u with live.budget := [] } { u.live with budget := [], failedRestarts := 0 }
        rfl rfl (K.budget0 _ h)
  · exact h

theorem finishStop_kept (t u) (h : P u) : P (finishStop t u) := K.entered _ _ _ _ rfl (writeLog_kept K _ _ _ _ _ h)

theorem startStop_kept (d t u) (h : P u) : P (startStop d t u) := by
  have h3 : P (if u.live.state == .stopping then { u with live.timer := some (startTimer t (d * 1000)) }
      else enterState .stopping (some (startTimer t (d * 1000))) t u) := by
    split
    · exact live_kept K _ _ rfl rfl h
    · exact K.entered _ _ _ _ rfl h
  have h4 : P { u with live.timer := some (startTimer t (d * 1000)) } := live_kept K _ _ rfl rfl h
  have h5 : P (enterState .stopping (some (startTimer t (d * 1000))) t u) := K.entered _ _ _ _ rfl h
  simp only [startStop]
  split
  · exact finishStop_kept K _ _ h3
  · exact h3

theorem handOverThermal_kept (b t u) (h : P u) : P (handOverThermal b t u) := by
  have a1 : ∀ t u, P u → P (hotRaised t u) := by
    intro t u h; unfold hotRaised; split
    · exact bump_kept K _ _ (K.entered _ _ _ _ rfl (writeLog_kept K _ _ _ _ _ h))
    · exact h
  have a2 : ∀ t u, P u → P (hotCleared t u) := by
    intro t u h; unfold hotCleared; split
    · exact enterColdHold_kept K _ _ h
    · exact leaveColdHold_kept K _ _ h
  simp only [handOverThermal]
  (repeat' split) <;> first
      | exact h
      | exact a1 _ _ h
      | exact a2 _ _ h
      | exact leaveColdHold_kept K _ _ (a1 _ _ h)
      | exact leaveColdHold_kept K _ _ (a2 _ _ h)
      | exact leaveColdHold_kept K _ _ h

theorem abandonLearn_kept (u) (h : P u) : P (abandonLearn u) := by
  unfold abandonLearn; split
  · exact bump_kept K _ _ (fan_kept K _ _ h)
  · exact h

theorem sampleChannel_kept (x c u) (h : P u) : P (sampleChannel x c u) := by
  have h1 : ∀ n, P { u with temp := u.temp.setChannel x n } := fun n => temp_kept K _ _ h
  simp only [sampleChannel, thermalNotice]
  (repeat' split) <;> first | exact h1 _ | exact composeNotice_kept K _ _ _ (bump_kept K _ _ (h1 _))

theorem sampleChannels_kept (a b c u) (h : P u) : P (sampleChannels a b c u) := by
  have h1 := sampleChannel_kept K .air c _ (sampleChannel_kept K .glass b _ (sampleChannel_kept K .board a u h))
  simp only [sampleChannels]
  generalize sampleChannel .air c (sampleChannel .glass b (sampleChannel .board a u)) = v at *
  have h2 : P (abandonLearnOnLoss u v) := by
    unfold abandonLearnOnLoss; split
    · exact abandonLearn_kept K _ h1
    · exact h1
  generalize abandonLearnOnLoss u v = w at *
  (repeat' split) <;> first | exact h2 | exact bump_kept K _ _ h2 | exact bump_kept K _ _ (bump_kept K _ _ h2)

theorem evaluateReadiness_kept (t u) (h : P u) : P (evaluateReadiness t u) := by
  unfold evaluateReadiness fallbackReadiness measuredReadiness startDwell setReadiness; dsimp only
  (repeat' split) <;> first | exact h | exact temp_kept K _ _ h | exact bump_kept K _ _ (temp_kept K _ _ h)

theorem evaluateHot_kept (u) (h : P u) : P (evaluateHot u) := by
  unfold evaluateHot
  (repeat' split) <;> first | exact h | exact temp_kept K _ _ h | exact bump_kept K _ _ (temp_kept K _ _ h)

theorem reportHappening_kept (p x u) (h : P u) : P (reportHappening p x u) := by
  unfold reportHappening keypadNotice; split <;> first
      | exact h
      | exact bump_kept K _ _ h
      | exact composeNotice_kept K _ _ _ (bump_kept K _ _ h)

theorem scanSample_kept (raw u) (h : P u) : P (scanSample raw u).1 := by
  have hn : P (noteSet (chooseSet u) u) := by
    unfold noteSet; dsimp only; (repeat' split) <;> first
        | exact keypad_kept K _ _ h
        | exact bump_kept K _ _ (keypad_kept K _ _ h)
  simp only [scanSample]
  split
  · simp only [feedQuietRun]; (repeat' split) <;> exact keypad_kept K _ _ hn
  · split
    · simp only [enterFlood]; exact bumpBy_kept K _ _ _ (bump_kept K _ _ (keypad_kept K _ _ hn))
    · simp only [handleKeys]; apply foldl_kept
      · intro u p h; exact reportHappening_kept K _ _ _ h
      · exact keypad_kept K _ _ hn

theorem keyUnit_kept (u : State) (n : KeyEventUnit) (h1 : n.queue = u.keyUnit.queue) (h2 :
    n.lossPending = u.keyUnit.lossPending) (h : P u) : P { u with keyUnit := n } := by
  have := K.unit u n.records n.chords h
  obtain ⟨a,b,c,d⟩ := n
  simp at h1 h2; subst h1 h2; exact this

theorem deliver_kept (e b t u) (h : P u) : P (deliver e b t u) := by
  unfold deliver; split
  · exact K.offered _ _ (by assumption) h
  · rename_i hh
    split
    · exact K.listed _ _ _ (by simpa using hh) h
    · exact bump_kept K _ _ h

theorem setRecord_kept (p r u) (h : P u) : P (setRecord p r u) := keyUnit_kept K _ _ rfl rfl h

theorem takeOutcome_kept (t u x) (h : P u) : P (takeOutcome t u x) := by
  unfold takeOutcome pressOutcome releaseOutcome; dsimp only
  (repeat' split) <;> first
      | exact h
      | exact bump_kept K _ _ h
      | exact deliver_kept K _ _ _ _ (bump_kept K _ _ (setRecord_kept K _ _ _ h))

theorem setChord_kept (c x u) (h : P u) : P (setChord c x u) := keyUnit_kept K _ _ rfl rfl h

theorem updateChords_kept (t u) (h : P u) : P (updateChords t u) := by
  unfold updateChords; apply foldl_kept _ _ _ _ h
  intro u c h; unfold updateChord; dsimp only
  (repeat' split) <;> first
      | exact h
      | exact setChord_kept K _ _ _ h
      | exact bump_kept K _ _ (setChord_kept K _ _ _ h)

theorem fireChord_kept (c t u) (h : P u) : P (fireChord c t u) := by
  have h1 : ∀ x y, P (composeNotice x y (setChord c .fired u)) :=
      fun x y => composeNotice_kept K _ _ _ (setChord_kept K _ _ _ h)
  simp only [fireChord]
  split
  · unfold chordAct chordRestart chordRelease grantPermit patternFlags
    (repeat' split) <;> first
        | exact bump_kept K _ _ (h1 _ _)
        | exact uncountedRestart_kept K _ _ _ _ (bump_kept K _ _ (h1 _ _))
        | exact releaseHost_kept K _ _ (bump_kept K _ _ (h1 _ _))
        | exact bump_kept K _ _ (bump_kept K _ _ (h1 _ _))
        | exact mgmt_kept K _ _ (bump_kept K _ _ (h1 _ _))
        | exact flags_kept K _ _ (bump_kept K _ _ (h1 _ _))
  · exact bump_kept K _ _ (h1 _ _)

theorem fanNotice_kept (e u) (h : P u) : P (fanNotice e u) := composeNotice_kept K _ _ _ h

theorem fanBoundary_kept (u) (h : P u) : P (fanBoundary u) := by
  have h1 : P (recomputeDuty (closeSpeedWindow u)) := fan_kept K _ _ (fan_kept K _ _ h)
  have hf : ∀ v n, P v → P { v with fan := n } := fun v n h => fan_kept K v n h
  have h2 : ∀ b v, P v → P (judgeFan b v) := by
    intro b v h
    unfold judgeFan judgeRunning judgeKicking judgeFailed startKick failFan recoverFan; dsimp only
    (repeat' split) <;> first
        | exact h
        | exact hf _ _ h
        | exact bump_kept K _ _ (hf _ _ (abandonLearn_kept K _ (hf _ _ h)))
        | exact hf _ _ (hf _ _ h)
        | exact bump_kept K _ _ (hf _ _ (hf _ _ h))
        | exact fanNotice_kept K _ _ (abandonLearn_kept K _ (bump_kept K _ _ (hf _ _ (hf _ _ h))))
  have h3 : ∀ v, P v → P (moveAirflowClock v) := by
    intro v h
    have h4 : ∀ n, P { v with fan := n } := fun n => hf _ _ h
    unfold moveAirflowClock refreshClog clogRefreshed; dsimp only
    (repeat' split) <;> first
        | exact h4 _
        | exact hf _ _ (h4 _)
        | exact fanNotice_kept K _ _ (bump_kept K _ _ (hf _ _ (hf _ _ (h4 _))))
  unfold fanBoundary; exact h3 _ (h2 _ _ h1)

/-- Every event keeps what its parts keep; the end of a field frame and the in-band reset are left to the caller. -/
theorem event_kept (i : Instr) (s t : State) (h : P s) (ht : exec i s = .next t) (hi : IsEvent i)
   (hfin : i = .transmissionComplete .field → ∀ x, s.fieldPort.sending = some x → P (finishField x.item s))
   (hib : i = .transmissionComplete .host → ∀ x, s.hostPort.sending = some x →
       s.mgmt.resetPending = some x.buffer → ∀ u, P u → P (inBandReset u)) : P t := by
  by_cases hcf : i = .transmissionComplete .field
  · subst hcf
    simp only [exec, execTransmissionComplete, Host.Outcome.next.injEq] at ht
    subst ht; split
    · exact hfin rfl _ (by assumption)
    · exact h
  by_cases hcf2 : i = .transmissionComplete .host
  · subst hcf2
    simp only [exec, execTransmissionComplete, Host.Outcome.next.injEq] at ht
    subst ht; split
    · rename_i x hx
      have h1 : P (releaseBuffer x.buffer (bump (Ctr.framesSent .host) { s with hostPort.sending := none })) :=
          releaseBuffer_kept K _ _ (bump_kept K _ _ (K.endHost _ h))
      unfold finishHost; dsimp only; split
      · rename_i hr; exact hib rfl x hx (by simpa using hr) _ h1
      · exact h1
    · exact h
  apply event_cases P i s h (t := t) (ht := ht) (hi := hi)
  case hchar => intro p e u h; exact receive_kept K _ _ _ h
  case hcomp => intro p; exact completeFrame_kept K _ _ h
  case hasm => intro p a; exact setAssembler_kept K _ _ _ h
  case hdropf => intro p b a id; exact dropFilling_kept K _ _ _ _ _ h
  case hhost =>
    intro b r _ hq; unfold startHostSending; dsimp only
    apply composeKeyNotices_kept K
    exact K.sendHost (setBuffer b _ s) _ b r hq (setBuffer_kept K _ _ _ h)
  case hfield =>
    intro b r _ hq; unfold startFieldSending; dsimp only
    have h1 : P (markSending b s) := by unfold markSending; split; exacts [setBuffer_kept K _ _ _ h, h]
    refine K.sendField _ _ b r ?_ h1
    unfold markSending; split <;> exact hq
  case hfh => intro x _ hc; exact absurd hc hcf2
  case hff => intro x _ hc; exact absurd hc hcf
  case hrate => intro p r; exact K.rx _ _ _ h
  case hexp => intro e hh t; exact K.expired _ _ _ _ h
  case hlate => intro e r hold _; exact K.freed _ _ h
  case hboot => intro _; exact enterBooting_kept K _ _ h
  case hcr => intro c _; exact countedRestart_kept K _ _ _ h
  case hwarn => intro hs; exact enterWarned_kept K _ _ hs h
  case hpow => intro _; exact K.entered _ _ _ _ rfl h
  case hcold => intro _; exact enterColdHold_kept K _ _ h
  case hstop => intro _; exact finishStop_kept K _ _ h
  case htemp =>
    intro b g a
    exact handOverThermal_kept K _ _ _ (evaluateHot_kept K _ (evaluateReadiness_kept K _ _ (sampleChannels_kept K _
        _ _ _ (temp_kept K _ _ h))))
  case hdwell => exact leaveColdHold_kept K _ _ (temp_kept K _ _ h)
  case hdem => exact K.demand _ h
  case hbound =>
    apply fanBoundary_kept K
    have : heaterBoundary s = { s with heat := (heaterBoundary s).heat } := by
      unfold heaterBoundary unblock; dsimp only; (repeat' split) <;> rfl
    rw [this]
    refine K.heat s _ ?_ ?_ h
    · unfold heaterBoundary unblock placeOutputs; dsimp only; (repeat' split) <;> rfl
    · unfold heaterBoundary unblock placeOutputs; dsimp only; (repeat' split) <;> rfl
  case htach => exact fan_kept K _ _ h
  case hact => unfold activateCutoff; apply bump_kept K; exact K.heat s _ rfl rfl h
  case hrel => exact K.heat s _ rfl rfl h
  case hlearn => intro d; exact bump_kept K _ _ (fan_kept K _ _ (K.learned _ d h))
  case hkey =>
    intro raw
    apply updateChords_kept K; unfold handOverOutcomes; apply composeKeyNotices_kept K
    apply foldl_kept
    · intro u a h; exact takeOutcome_kept K _ _ _ h
    · exact scanSample_kept K _ _ (keypad_kept K _ _ h)
  case hrep =>
    intro p r e b
    exact composeKeyNotices_kept K _ (deliver_kept K _ _ _ _ (bump_kept K _ _ (setRecord_kept K _ _ _ h)))
  case hchord => intro c _; exact fireChord_kept K _ _ _ h
  case hperm => exact mgmt_kept K _ _ h
  case hstore => intro j hj; exact mgmt_kept K { s with store := finishWrite j s.store } _ (K.stored _ j hj h)
  case hstep => intro n; exact K.heat s _ rfl rfl h

theorem earlyStreak_kept (n u) (h : P u) : P { u with live.earlyStreak := n } := live_kept K _ _ rfl rfl h

theorem doFeed_kept (c u) (h : P u) : P (doFeed c u).state := by
  unfold doFeed; split
  · split
    · simp only [done]
      unfold earlyFeed; dsimp only
      have h1 := bump_kept K Ctr.livenessEarlyFeeds _ (earlyStreak_kept K (u.live.earlyStreak + 1) u h)
      split
      · exact countedRestart_kept K _ _ _ (earlyStreak_kept K 0 _ h1)
      · exact h1
    · simp only [done]; exact bump_kept K _ _ (K.accepted _ _ (by assumption) h)
  · exact bump_kept K _ _ h

/-- Every management command keeps what its parts keep; the in-band reset at a refused Done reply is left to the
caller. -/
theorem management_kept (i : Instr) (s t : State) (h : P s) (ht : exec i s = .next t) (hi : IsManagement i)
   (hib : (∃ p, i = .supervisorReset p) → 16 ≤ s.hostPort.queue.length → ∀ u, P u → P (inBandReset u)) : P t := by
  have hz : ∀ w, P { s with mgmt.waiting := w } := fun w => mgmt_kept K _ _ h
  refine management_cases P i s ?_ h hz ?_ ?_ ?_ ?_ ?_ ?_ ?_ ?_ ?_ ?_ ?_ ?_ ?_ ?_ ?_ t ht hi
  · intro code c r d u hu; exact replyTo_kept K _ _ _ _ _ hu
  · intro w g a b; unfold clearCounters; dsimp only
    have h1 : ∀ (u : State) c, P u → P { u with counters := c } :=
        fun u c hu => K.other u u.pool c u.noticeNo u.flags u.temp u.fan u.keypad u.mgmt hu
    split
    · exact K.hits _ _ (h1 _ _ (hz w))
    · exact h1 _ _ (hz w)
  · intro w t htb; exact K.tabs { s with mgmt.waiting := w } t htb (hz w)
  · intro w t; exact K.swapped _ _ (hz w)
  · intro t u hu; exact K.storing _ _ hu
  · intro w e pl t hn; exact bump_kept K _ _ (K.filled _ _ _ _ hn (hz w))
  · intro w; exact bump_kept K _ _ (hz w)
  · intro w p; exact flags_kept K _ _ (hz w)
  · intro w c; exact doFeed_kept K _ _ (hz w)
  · intro w b t hp; exact uncountedRestart_kept K _ _ _ _ (hz w)
  · intro w c; unfold doHostPowerOff; dsimp only; split
    · exact hz w
    · split
      · exact startStop_kept K _ _ _ (hz w)
      · split
        · exact K.entered _ _ _ _ rfl (hz w)
        · exact hz w
  · intro w t hx _; exact releaseHost_kept K _ _ (hz w)
  · intro w; exact K.emptyLog _ (hz w)
  · intro w t _; exact fan_kept K _ _ (hz w)
  · intro w; exact mgmt_kept K s _ h
  · intro w c hc; unfold requestReset; dsimp only; split
    · exact mgmt_kept K _ _ (replyTo_kept K _ _ _ _ _ (hz w))
    · rename_i hr
      apply hib hc
      · have : ¬ s.hostPort.queue.length < 16 := fun hl => hr ((hostQueueRoom_iff _).2 hl)
        omega
      · exact replyTo_kept K _ _ _ _ _ (hz w)

end Sys2Proof.Machine
end

