-- ==== Sys2Proof/Tests/Slice0.lean ====
section
/-! SUPPORT. The model's own tests: the spec's worked examples, one-step tests of the commands, and for every
statement with hypotheses the states that meet them.
WellFormed has no check that could refuse a term (the operand types hold every range), so there is no ill-formed
term to try; the table gives no row any bits, so there is no word to decode. -/

namespace Sys2Proof.Tests

open Sys2Proof.Machine

set_option Elab.async false

/-! ### Helpers -/

/-- The state after a command. -/
def after (c : Instr) (s : State) : State :=
  match exec c s with
  | .next t => t
  | .fault _ => s
  | .refused _ => s

/-- The part in a liveness state. -/
def inState (l : Liveness) (s : State) : State := { s with live.state := l }

/-- The first n buffers Free and the others Working. -/
def withFree (n : Nat) (s : State) : State :=
  { s with pool := Vector.ofFn fun b => if b.val < n then {} else { state := .working } }

/-- This many buffers in the Host Transmit Queue, or items in the Field Transmit Queue. -/
def hostQueued (n : Nat) (s : State) : State := { s with hostPort.queue := List.replicate n 0 }

def fieldQueued (n : Nat) (s : State) : State := { s with fieldPort.queue := List.replicate n (.buffer 0) }

/-- Board and Air Valid at these tenths of a degree. -/
def boardAir (b a : Int) (s : State) : State := { s with temp.board := .valid b, temp.air := .valid a }

/-- The time base at n ms. -/
def atMs (n : Nat) (s : State) : State := { s with clock.ms := BitVec.ofNat 32 n }

/-- A setting of the live Settings table changed. -/
def withSetting (i : Fin 61) (v : Int) (s : State) : State :=
  { s with tables.settings.live := s.tables.settings.live.set i v }

/-- A port's assembler in Filling, in buffer 0, with these bytes received. -/
def filling (p : Port) (a : Address) (bs : List Byte) (s : State) : State :=
  setAssembler p (.filling 0 a) (setBuffer 0 { state := .filling, port := p, bytes := bs } s)

/-- A command frame handed to the Management Unit, in buffer 0 with tag 7. -/
def commanded (p : Port) (code : Nat) (args : List Byte) (s : State) : State :=
  let s := setBuffer 0 { state := .working, port := p, bytes := frameBytes 255 3 (byte code) 7 args } s
  { s with mgmt.waiting := [0] }

/-- Field Permit with ten minutes to run. -/
def permitted (s : State) : State := { s with mgmt.permit := some ⟨0, 600000⟩ }

/-- A route entry at index 0. -/
def withRoute (e : RouteEntry) (s : State) : State :=
  { s with tables.route.live := s.tables.route.live.set 0 e }

/-- A valid entry for every topic, with condition Always. -/
def routeOf (source : Port) (cls : ClassMatch) (action : RouteAction) : RouteEntry :=
  ⟨true, source, cls, .any, 0, 255, .always, action, false, false, 0⟩

/-- A field Request to ownStation in buffer 3, with topic 14 and tag 9. -/
def request : RoutedFrame := ⟨3, .field, false, true, .request, 14, 9, [], {}⟩

/-- A host Reply in buffer 3, with topic 14 and tag 9. -/
def reply : RoutedFrame := ⟨3, .host, false, true, .reply, 14, 9, [1, 2], {}⟩

/-- The exchange of `request`. -/
def opened : Request := ⟨9, 14, 0, 40, 0⟩

/-- Exchange Table entry 2 set. -/
def withExchange (x : Exchange) (s : State) : State := { s with exchanges := s.exchanges.set 2 x }

/-- Entries 1 and 2 Waiting for one age, entry 5 longer, entry 6 Late; a key event queued and a loss pending. -/
def answering (s : State) : State :=
  { s with
    clock.ms := 30
    exchanges := (((s.exchanges.set 1 (.waiting ⟨8, 14, 20, 40, 0⟩)).set 2 (.waiting ⟨9, 14, 20, 40, 2⟩)).set 5
      (.waiting ⟨10, 15, 10, 40, 1⟩)).set 6 (.late opened ⟨0, 1000⟩)
    keyUnit := { s.keyUnit with queue := [⟨5, .press, false, 100, false⟩], lossPending := true } }

/-- Whether the second state has a powered host and a heater that is not allowed and that the first does not block. -/
def blocksOne (s t : State) : Bool :=
  hostPowerEnable t && [Heater.board, .glass].any fun h => !heaterAllowed t h && !(s.heat.channel h).blocked

/-- Proxy Table entry 2 valid for topic 14 with maxAge 30 s. -/
def withProxy (r : ProxyRuntime) (s : State) : State :=
  { s with tables.proxy.live := s.tables.proxy.live.set 2 ⟨true, 14, 30⟩, proxy := s.proxy.set 2 r }

/-- The active half 0 Filled as in section 3.5, with this many pins. -/
def halfFilled (pins : Nat) : ProxyRuntime := { half0 := ⟨true, [1, 2, 3, 4, 5, 6, 7, 8], 4990, pins⟩ }

/-! ### The spec's worked examples -/

/-- R5: the check of the nine characters 1 to 9. -/
theorem test_crc_check_value :
    crc16 [0x31, 0x32, 0x33, 0x34, 0x35, 0x36, 0x37, 0x38, 0x39] = 0x29B1 := by decide +kernel

/-- R29: the four patterns it gives as examples. -/
theorem test_flag_patterns :
    applyPattern 0x0001 0 = 0x01 ∧ applyPattern 0x0002 0xFF = 0xFE ∧ applyPattern 0x000C 0 = 0x02 ∧
    applyPattern 0x4009 0x02 = 0x81 := by decide

/-- Section 5.11. -/
theorem test_conversions :
    [2410, 2400, 2304, 16, 4079].map (convert factoryCurveA) = [-196, -192, -150, 1278, -500] ∧
    convert factoryCurveB 2410 = -10 := by decide

/-- Section 5.12: the eight samples of the warm-up, and the fall of the input after them. -/
theorem test_filter_run :
    filterStep (-210) (-196) = -207 ∧ filterStep (-207) (-196) = -205 ∧ filterStep (-205) (-196) = -203 ∧
    filterStep (-203) (-196) = -202 ∧ filterStep (-202) (-196) = -201 ∧ filterStep (-199) (-196) = -199 ∧
    filterStep (-199) (-210) = -201 := by decide

/-- Section 5.12, samples 9 and 11: a fault code holds the value, the next valid code seeds the channel. -/
theorem test_fault_and_return :
    (Channel.valid (-199)).sampled factoryCurveA 4093 = .faulted (some (-199)) ∧
    (Channel.faulted (some (-199))).sampled factoryCurveA 2410 = .valid (-196) := by decide

/-- Section 6.6: the demands of a cold cabinet. -/
theorem test_demands :
    demandOf (32 * demandError 50 (-207) + 1600) = 100 ∧ integratorAfter false 4 9824 257 1600 = 1600 ∧
    demandOf (16 * demandError 0 (-300) + 0) = 75 ∧ integratorAfter false 8 4800 300 0 = 2400 := by decide

/-- Section 6.6: the table of allocations and the two splits of its story. -/
theorem test_allocations :
    allocate 100 75 3 true = ⟨54, 40, 3⟩ ∧ allocate 100 0 3 true = ⟨97, 0, 3⟩ ∧
    allocate 100 100 3 true = ⟨47, 47, 3⟩ ∧ allocate 30 40 3 true = ⟨30, 40, 3⟩ ∧
    allocate 60 60 3 false = ⟨47, 47, 3⟩ ∧ allocate 100 1 3 true = ⟨94, 0, 3⟩ ∧
    allocate 0 100 3 true = ⟨0, 97, 3⟩ ∧ allocate 50 50 0 true = ⟨50, 50, 0⟩ ∧
    allocate 100 0 0 true = ⟨100, 0, 0⟩ := by decide

/-- Section 6.6: the steps of period n at their edges. -/
theorem test_placement :
    [0, 53, 54, 56, 57, 96, 97, 99].map (boardOnAt ⟨54, 40, 3⟩) =
      [true, true, false, false, false, false, false, false] ∧
    [0, 53, 54, 56, 57, 96, 97, 99].map (glassOnAt ⟨54, 40, 3⟩) =
      [false, false, false, false, true, true, false, false] := by decide

/-- R130: the two figures of section 6.8, the ends of the hysteresis and the absent value. -/
theorem test_fan_curve :
    (curveDuty factorySettings (some 425) false).1 = 65 ∧ (curveDuty factorySettings (some 360) false).1 = 34 ∧
    curveDuty factorySettings (some 330) true = (30, true) ∧ curveDuty factorySettings (some 329) true = (0, false)
        ∧
    curveDuty factorySettings none false = (100, true) := by decide

/-- Section 6.10, boundaries 5 and 7: the first kick and its end. -/
theorem test_iced_fan :
    (let s : State := { State.reset with fan := { state := .running, commanded := 65, stallRun := 4 } }
     fanOutput (judgeRunning false s).fan = 100 ∧ (judgeRunning false s).fan.kicks = 1) ∧
    (let s : State := { State.reset with
       fan := { state := .kicking (.kick 1), commanded := 65, stallRun := 1, kicks := 1 } }
     (judgeKicking (.kick 1) false s).fan.state = .kicking .watch ∧
       fanOutput (judgeKicking (.kick 1) false s).fan = 65 ∧ (judgeKicking (.kick 1) false s).fan.stallRun = 2) :=
           by
  decide

/-! ### One step of each command -/

/-- The result byte of the reply in buffer 0 (R177). -/
def resultOf (s : State) : Option Byte := (framePayload s.pool[(0 : BufferId)].bytes).head?

/-- The data of the reply in buffer 0 (R177). -/
def dataOf (s : State) : List Byte := (framePayload s.pool[(0 : BufferId)].bytes).drop 1

/-- R98: a power-on reset leaves the part at State.reset, counters and log cleared. -/
theorem test_power_on_reset :
    after .powerOnReset (bump Ctr.livenessFeedsAccepted (inState .running State.reset)) = State.reset := by
  decide +kernel

/-- R99: the reset of a powered host is logged, uptime from entering BOOTING. -/
theorem test_reset_line :
    (after .resetLineReset (inState .running State.reset)).log.records.map (·.cause) = [.externalReset] ∧
    (after .resetLineReset State.reset).log.records = [] := by decide +kernel

/-- R8: a good marker character claims a buffer, which holds the station; R9: a plain one in Idle is stray; R3: a
start bit ends the silence. -/
theorem test_receive_character :
    (let t := after (.receiveCharacter .field (.taken ⟨1, true, true⟩)) State.reset
     t.fieldPort.rx.assembler = .filling 0 .own ∧ t.pool[(0 : BufferId)].bytes = [1]) ∧
    (after (.receiveCharacter .host (.taken ⟨1, false, true⟩)) State.reset).hostPort.rx.assembler = .skipping ∧
    (let t := after (.receiveCharacter .host .startBit) (setRx .host { silence := 396, rate := .r9600 } State.reset)
     t.hostPort.rx.silence = 0 ∧ t.hostPort.rx.busy = true) := by
  decide +kernel

/-- R9, R13: more than 33 bit times of silence, in twelfths. -/
theorem test_silence :
    (let t := setRx .field { assembler := .skipping, silence := 397, rate := .r9600 } State.reset
     (after (.skipTimeout .field) t).fieldPort.rx.assembler = .idle) ∧
    (let t := setRx .field { assembler := .filling 0 .own, silence := 397, rate := .r9600 }
       (setBuffer 0 { state := .filling, port := .field, bytes := [1, 0] } State.reset)
     (after (.gapError .field) t).fieldPort.rx.assembler = .idle ∧
       (after (.gapError .field) t).pool[(0 : BufferId)].state = .free) := by decide +kernel

/-- R14, R39: a field Request completed while the host is down is answered with an empty reply. -/
theorem test_frame_complete :
    let t := after (.frameComplete .field) (filling .field .own (frameBytes 1 0 14 9 []) State.reset)
    t.fieldPort.queue = [.reply ⟨1, 14, 9, ⟨false, true, false, true⟩, .nothing⟩] ∧
      t.pool[(0 : BufferId)].state = .free := by decide +kernel

/-- R21, R22, R24: the two ports start the heads of their queues and end what they send. -/
theorem test_transmission :
    (let s := enqueueHost 0 (setBuffer 0 { state := .working, bytes := frameBytes 255 2 0xC1 0 [3] } State.reset)
     let t := after .hostTransmitStart s
     t.hostPort.queue = [] ∧ t.pool[(0 : BufferId)].state = .sending ∧
       (after (.transmissionComplete .host) t).pool[(0 : BufferId)].state = .free) ∧
    (let s := enqueueReply ⟨1, 14, 9, ⟨false, true, false, true⟩, .nothing⟩
       (setRx .field { silence := 264, rate := .r9600 } State.reset)
     let t := after .fieldTransmitStart s
     fieldDirection t = true ∧ (t.fieldPort.sending.map fun x => (x.line.map (·.data)).take 5) =
       some [1, 0xD1, 14, 9, 0] ∧ fieldDirection (after (.transmissionComplete .field) t) = false) := by
  decide +kernel

/-- R3: an idle port takes up the committed rate. -/
theorem test_rate_change :
    (after (.rateChangeApply .field) (withSetting 1 2 State.reset)).fieldPort.rx.rate = .r38400 := by decide +kernel

/-- R54, R56: expiry at the deadline composes one reply and holds the tag; lateHold frees the entry. -/
theorem test_exchange_timers :
    (let s := atMs 40 (withExchange (.waiting opened) State.reset)
     (after (.exchangeDeadlineExpiry 2) s).exchanges[(2 : ExchangeId)] = .late opened ⟨40, 1000⟩ ∧
       (after (.exchangeDeadlineExpiry 2) s).fieldPort.queue.length = 1) ∧
    (after (.lateHoldExpiry 2) (atMs 1040 (withExchange (.late opened ⟨40, 1000⟩) State.reset))).exchanges[(2 :
      ExchangeId)] = .free := by decide +kernel

/-- A liveness state whose timer of 1 ms has run. -/
def timedOut (l : Liveness) : State := atMs 1 { State.reset with live := { state := l, timer := some ⟨0, 1⟩ } }

/-- R80 to R83, R88, R89, R91: where each liveness timer leads at the factory settings. -/
theorem test_liveness_timers :
    [(Instr.powerSettleExpiry, Liveness.powering), (.bootGraceExpiry, .booting), (.windowMaxExpiry, .running),
      (.warnGraceExpiry, .warned), (.resetPulseExpiry, .resetting), (.cycleOffExpiry, .cycling),
      (.stopDelayExpiry, .stopping)].map (fun p => (after p.1 (timedOut p.2)).live.state) =
    [.booting, .resetting, .warned, .resetting, .booting, .coldHold, .off] := by decide +kernel

/-- R101, R102: the first sample seeds the channels. R110: the dwell's end powers the host from COLD HOLD. -/
theorem test_temperature :
    (let t := after (.temperatureSample 2410 2410 15) (atMs 100 State.reset)
     t.temp.board = .valid (-196) ∧ t.temp.glass = .valid (-10) ∧ t.temp.air = .faulted none) ∧
    (after .dwellExpiry (atMs 60000 { State.reset with
      temp := { readiness := .dwelling, dwell := some ⟨0, 60000⟩ } })).live.state = .powering := by decide +kernel

/-- The heaters of section 6.6 in period n. -/
def coldCabinet : State :=
  { State.reset with
    temp := { board := .valid (-207), glass := .valid (-300) }
    heat := { State.reset.heat with
      board := { integrator := 1600 }
      current := ⟨54, 40, 3⟩ } }

/-- Section 6.6: the demand event. -/
theorem test_demand_event :
    let t := (after .demandEvent (atMs 900 coldCabinet)).heat
    t.pending = ⟨54, 40, 3⟩ ∧ t.board.integrator = 1600 ∧ t.glass.integrator = 2400 := by decide +kernel

/-- Section 6.6 and 6.7: the boundary, a step of the glass share, and the cutoff line. -/
theorem test_heat_steps :
    (let t := (after .heatBoundary (atMs 1000 { coldCabinet with heat.pending := ⟨60, 34, 3⟩ })).heat
     t.current = ⟨60, 34, 3⟩ ∧ t.board.output = true ∧ t.glass.output = false) ∧
    (after .heatStep (atMs 570 coldCabinet)).heat.glass.output = true ∧
    (let t := after .cutoffActive coldCabinet
     t.heat.current = ⟨0, 0, 3⟩ ∧ t.heat.cutoffMarks = true ∧
       (after .cutoffRelease t).heat.cutoffMarks = true ∧ (after .cutoffRelease t).heat.cutoffLine = false) := by
  decide +kernel

/-- R132: 50 pulses in a window read 1500 rpm. R138: the learn's end writes the difference and marks it learned. -/
theorem test_fan_commands :
    (after .heatBoundary (atMs 1000 (after .tachPulse { State.reset with fan.pulses := 49 }))).fan.speed = 1500 ∧
    (let s := { State.reset with
       temp := { board := .valid 300, air := .valid 180 }, fan := { learn := .learning ⟨0, 120000⟩ } }
     let t := after .learnComplete (atMs 120000 s)
     (settings t).baselineDelta = 120 ∧ (settings t).baselineLearned = 1 ∧ t.fan.learn = .idle) := by
  decide +kernel

/-- Section 7.8 in small: with three corners Down, the fourth key's press is Ambiguous and reports nothing; a key
out of the rectangle goes to Pressing. -/
theorem test_keypad_sample :
    let s := { State.reset with
      temp.glass := .valid 0
      keypad := { State.reset.keypad with
        keys := ((State.reset.keypad.keys.set 0 (.down 0)).set 1 (.down 0)).set 8 (.down 0) } }
    let t := after (.keypadSample 0x100303) (atMs 5 s)
    t.keypad.keys[(9 : KeyPos)] = .ambiguous ∧ t.keypad.keys[(20 : KeyPos)] = .pressing 1 ∧
      t.keyUnit.queue = [] := by decide +kernel

/-- R163: a repeat restarts its timer with repeatPeriod. R172: a fired chord acts. -/
theorem test_key_timers :
    (let s := { inState .running State.reset with
       keyUnit := { records := (Vector.replicate 48 none).set 4 (some ⟨5, true, some ⟨0, 500⟩⟩) } }
     let t := after (.repeatExpiry 4) (atMs 500 s)
     t.keyUnit.records[(4 : KeyPos)] = some ⟨5, true, some ⟨500, 100⟩⟩ ∧
       framePayload t.pool[(0 : BufferId)].bytes = [5, 2, 0x01, 0xF4]) ∧
    (let s := { State.reset with
       tables.chord.live := State.reset.tables.chord.live.set 3 ⟨true, 0, 1, none, 500, .always, .flagPattern, 1⟩
       keyUnit := { chords := (Vector.replicate 8 .idle).set 3 (.holding ⟨0, 500⟩) } }
     let t := after (.chordFire 3) (atMs 500 s)
     t.keyUnit.chords[(3 : ChordId)] = .fired ∧ t.flags = 1) := by decide +kernel

/-- R180: the permit ends. R187: the written image clears its table's mark. -/
theorem test_permit_and_store :
    (after .permitExpiry (atMs 600000 (permitted State.reset))).mgmt.permit = none ∧
    (let t := after .storeWriteComplete { State.reset with store.writing := some (.curveA factoryCurveA) }
     t.store.writing = none ∧ t.mgmt.defaultsInUse = 0b1110111#7) := by decide +kernel

/-- R177, section 1.10: the result of each management command from the Host Link, carried out right after reset (0
Done, 3 BadArgument, 7 WrongState). -/
theorem test_management_results :
    [(Instr.status .host, 0x01, [0]), (.readEntry .host, 0x02, [6, 0, 0]), (.writeEntry .host, 0x03, [7, 0, 1, 14,
        0, 30]),
      (.commit .host, 0x04, [1, 0]), (.discard .host, 0x05, [1]), (.writeProxy .host, 0x06, [0, 0]),
      (.setFlags .host, 0x07, [0x40, 0x09]), (.feed .host, 0x08, []), (.hostRestart .host, 0x09, [0]),
      (.hostPowerOff .host, 0x0A, [0, 0]), (.hostRelease .host, 0x0B, []), (.readLog .host, 0x0C, [0]),
      (.clearLog .host, 0x0D, []), (.readCounters .host, 0x0E, [1, 0, 0]), (.learnAirflow .host, 0x0F, []),
      (.freeze .host, 0x10, []), (.supervisorReset .host, 0x11, [])].map
        (fun x => resultOf (after x.1 (commanded .host x.2.1 x.2.2 State.reset))) =
    [0, 0, 0, 0, 0, 3, 0, 7, 7, 0, 7, 3, 0, 0, 7, 0, 0].map some := by decide +kernel

/-- The data of some replies (R30, R182, R183, section 9.5's defaults). -/
theorem test_management_data :
    dataOf (after (.readEntry .host) (commanded .host 0x02 [6, 12, 0] State.reset)) = [0, 0, 0x13, 0x88] ∧
    dataOf (after (.setFlags .host) (commanded .host 0x07 [0x40, 0x09] State.reset)) = [0x81] ∧
    (dataOf (after (.readCounters .host) (commanded .host 0x0E [2, 0, 3] State.reset))).take 3 = [7, 3, 4] ∧
    dataOf (after (.writeEntry .host) (commanded .host 0x03 [6, 8, 0, 0, 0, 2] State.reset)) = [1] := by
  decide +kernel

/-- A step takes the command at the front of the queue and leaves the rest. -/
theorem test_step_takes_front :
    (match step { State.reset with pending := [.tachPulse, .cutoffActive] } with
    | .next t => some (t.pending, t.fan.pulses)
    | _ => none) = some ([.cutoffActive], 1) := by decide +kernel

/-- No word spells a command, so the state stays as it is (log 31). -/
theorem test_no_word_spells : decodeTableWord 8 0 = none ∧ State.reset.withFetchWord 8 0 = State.reset := by
  decide +kernel

/-! ### States that meet the hypotheses of the statements, clause by clause and at the clauses' boundaries -/

/-- A taken command with these arguments, from a check that evaluates. -/
theorem takes_of_args {code : Nat} {p : Port} {s : State} {args : List Byte}
    (h : (takeCommand code p s).map (·.1.args) = some args) :
    ∃ (c : Command) (s' : State), Takes code p c s s' ∧ c.args = args := by
  cases hx : takeCommand code p s with
  | none => simp [hx] at h
  | some x => exact ⟨x.1, x.2, hx, by simpa [hx] using h⟩

/-- An idle queue with and without a frame that waits for its completion; the second's last tick and the one before
it; a reset from which the time base begins again. -/
theorem meets_IdleStepIsOneTick :
    State.reset.pending = [] ∧ arrivalWorkWaits State.reset = false ∧
    arrivalWorkWaits (filling .field .own (frameBytes 1 0 14 9 []) State.reset) = true ∧
    ([115198, 115199].map fun n => decide (n < 115200)) = [true, true] ∧ State.reset.clock.sub < 115200 ∧
    exec .powerOnReset (atMs 5 State.reset) = .next (after .powerOnReset (atMs 5 State.reset)) :=
  ⟨rfl, by decide +kernel, by decide +kernel, by decide +kernel, by decide +kernel, rfl⟩

/-- A reset of each kind, and images that a load takes and one that it refuses. -/
theorem meets_ResetClearsBlocks :
    exec .powerOnReset State.reset = .next (after .powerOnReset State.reset) ∧
    exec .resetLineReset State.reset = .next (after .resetLineReset State.reset) ∧
    (let good : StoredImage CurveTable := ⟨factoryCurveA, crc16 (curveImage factoryCurveA)⟩
     good.check = crc16 (curveImage good.contents) ∧
       ({ good with check := good.check + 1 } : StoredImage CurveTable).check ≠ crc16 (curveImage good.contents)) ∧
    ({ State.reset.store with writing := some (.curveA factoryCurveA) } : Store).writing.map StoreJob.id = some 4 :=
  ⟨rfl, rfl, by decide +kernel, rfl⟩

/-- A pending reset at the end of its reply; a half that a queued descriptor pins, alone and beside a second pin; an
entry that the reload changes and one that it does not; a heater that the reloaded Settings do not allow. -/
theorem meets_InBandResetAtReplyEnd :
    (let s : State := { State.reset with hostPort.sending := some ⟨0, []⟩, mgmt.resetPending := some 0 }
     (s.hostPort.sending.map (·.buffer)) = s.mgmt.resetPending ∧ s.mgmt.resetPending = some 0) ∧
    ([1, 2].map fun n =>
      let s := enqueueReply ⟨1, 14, 9, ⟨false, false, false, false⟩, .half 2 .half0⟩
        (withProxy (halfFilled n) State.reset)
      (s.proxy[(2 : ProxyId)].get .half0).pins - (fieldItems s).countP (pinsHalf 2 .half0)) = [0, 1] ∧
    (let s := withProxy (halfFilled 1) State.reset
     s.tables.proxy.live[(2 : ProxyId)].valid ≠ (loadTables s.store).proxy.live[(2 : ProxyId)].valid ∧
       s.tables.proxy.live[(3 : ProxyId)] = (loadTables s.store).proxy.live[(3 : ProxyId)]) ∧
    (let s : State := { inState .running State.reset with
       hostPort.sending := some ⟨0, []⟩, mgmt.resetPending := some 0 }
     blocksOne s (after (.transmissionComplete .host) s) = true) := by decide +kernel

/-- Idle and Skipping; a station of another drop, and the three that are not; 3 and 2 buffers Free. -/
theorem meets_MarkerStartsFrame :
    isDeaf State.reset .field = false ∧ (State.reset.rx .field).assembler = .idle ∧
    ((setAssembler .host .skipping State.reset).rx .host).assembler = .skipping ∧
    ((5 : Byte) ≠ ownStation State.reset ∧ (5 : Byte) ≠ mgmtStation State.reset ∧ (5 : Byte) ≠ 0) ∧
    (ownStation State.reset = 1 ∧ mgmtStation State.reset = 247) ∧
    freeCount (withFree 3 State.reset) = 3 ∧ freeCount (withFree 2 State.reset) = 2 ∧
    freeCount (withFree 0 State.reset) = 0 := by decide +kernel

/-- The assembler states, a deaf Field Port, 33 bit times just reached and just passed, a line where a character has
begun, and an unfinished frame. -/
theorem meets_LineEventsOutsideFrames :
    (State.reset.rx .host).assembler = .idle ∧ isDeaf State.reset .host = false ∧
    completedFrame .host State.reset = none ∧
    ((setAssembler .field .skipping State.reset).rx .field).assembler = .skipping ∧
    fieldDirection { State.reset with
      fieldPort.sending := some ⟨.reply ⟨1, 14, 9, ⟨false, true, false, true⟩, .nothing⟩, []⟩ } = true ∧
    silentOver33 { silence := 396, rate := .r9600 } = false ∧
    silentOver33 { silence := 397, rate := .r9600 } = true ∧
    silentOver33 { silence := 397, rate := .r9600, busy := true } = false ∧
    (let s := filling .field .own [1, 0, 14] State.reset
     (s.rx .field).assembler = .filling 0 .own ∧ frameIsComplete s.pool[(0 : BufferId)].bytes = false ∧
       isFilling .field s = true) ∧
    isSending .field State.reset = false ∧ isFilling .field State.reset = false := by decide +kernel

/-- A frame with byte 4 next, and the lengths 32 and 33 for it. -/
theorem meets_CharactersInFilling :
    (let s := filling .host .own [1, 0, 14, 9] State.reset
     isDeaf s .host = false ∧ (s.rx .host).assembler = .filling 0 .own ∧
       frameIsComplete s.pool[(0 : BufferId)].bytes = false ∧ s.pool[(0 : BufferId)].bytes.length = 4) ∧
    ¬32 < (32 : Byte).toNat ∧ 32 < (33 : Byte).toNat := by decide +kernel

/-- A good and a bad check; a frame for lookup; at the management station a Notice, and Commands of the codes 0x11
and 0x12. -/
theorem meets_FrameCompletionRule :
    FrameStands .field 0 .own (filling .field .own (frameBytes 1 0 14 9 []) State.reset) ∧
    checkAgrees (frameBytes 1 0 14 9 []) = true ∧
    FrameStands .field 0 .own (filling .field .own [1, 0, 14, 9, 0, 0, 0] State.reset) ∧
    checkAgrees [1, 0, 14, 9, 0, 0, 0] = false ∧
    FrameStands .host 0 .management (filling .host .management (frameBytes 255 2 0x11 9 []) State.reset) ∧
    frameClass (frameBytes 255 2 0x11 9 []) = .notice ∧ frameClass (frameBytes 255 3 0x11 9 []) = .command ∧
    FrameStands .host 0 .management (filling .host .management (frameBytes 255 3 0x12 9 []) State.reset) ∧
    (frameTopic (frameBytes 255 3 0x11 9 [])).toNat = 0x11 ∧
        (frameTopic (frameBytes 255 3 0x12 9 [])).toNat = 0x12 ∧
    checkAgrees (frameBytes 255 3 0x12 9 []) = true := by decide +kernel

/-- Payloads of 0 and 32 bytes, and a complete frame whose reserved bit 2 is set. -/
theorem meets_SentFramesCarryTheirCheck :
    ([] : List Byte).length ≤ 32 ∧ (List.replicate 32 (7 : Byte)).length ≤ 32 ∧
    frameIsComplete [1, 4, 14, 9, 0, 0, 0] = true ∧ (byteAt [1, 4, 14, 9, 0, 0, 0] 1).getLsbD 2 = true := by
  decide +kernel

/-- A table with a winner and one without. -/
theorem meets_LookupFindsFirstMatch :
    lookup request (withRoute (routeOf .field .request .forward) State.reset) = some 0 ∧
    lookup request State.reset = none := by decide +kernel

/-- A dropped Notice of the host, and one whose entry feeds; a heartbeat with trafficFeed no, in a state that does not
hear it, in RUNNING, and in the two states that it takes to RUNNING. -/
theorem meets_RouteDropRule :
    (let f : RoutedFrame := { reply with cls := .notice }
     let s := withRoute (routeOf .host .notice .drop) State.reset
     let s' := withRoute { routeOf .host .notice .drop with feed := true } State.reset
     GoesToLookup f s ∧ lookup f s = some 0 ∧ s.tables.route.live[(0 : RouteId)].action = .drop ∧
     s.tables.route.live[(0 : RouteId)].feed = false ∧
     GoesToLookup f s' ∧ lookup f s' = some 0 ∧ s'.tables.route.live[(0 : RouteId)].feed = true ∧
     f.source = .host) ∧
    (settings (withSetting 14 0 State.reset)).trafficFeed = 0 ∧
    (settings (withSetting 14 1 State.reset)).trafficFeed ≠ 0 ∧
    ([Liveness.coldHold, .booting, .running, .warned].map fun l =>
      decide ((inState l State.reset).live.state ∈ [.booting, .running, .warned])) = [false, true, true, true] := by
  decide +kernel

/-- The state in which entry 0 forwards `request`. -/
def forwarding : State := withRoute (routeOf .field .request .forward) State.reset

/-- Fifteen and sixteen queued buffers; the tag on a Late entry, a Free entry, and a full Exchange Table; a Request
won by Answer, a forwarded broadcast, and a Notice of the field won by Forward. -/
theorem meets_ForwardRequestRule :
    request.isOwnRequest = true ∧ GoesToLookup request forwarding ∧ lookup request forwarding = some 0 ∧
    forwarding.tables.route.live[(0 : RouteId)].action = .forward ∧
    lateWith 9 forwarding = none ∧ freeExchange forwarding = some 0 ∧
    lateWith 9 (withExchange (.late opened ⟨40, 1000⟩) forwarding) = some 2 ∧
    GoesToLookup request (withExchange (.late opened ⟨40, 1000⟩) forwarding) ∧
    (hostQueued 15 forwarding).hostPort.queue.length < 16 ∧ GoesToLookup request (hostQueued 15 forwarding) ∧
    16 ≤ (hostQueued 16 forwarding).hostPort.queue.length ∧ GoesToLookup request (hostQueued 16 forwarding) ∧
    (let full : State := { forwarding with
       exchanges := Vector.ofFn fun i => .waiting { opened with tag := byte (20 + i) } }
     GoesToLookup request full ∧ lookup request full = some 0 ∧ lateWith 9 full = none ∧
       freeExchange full = none) ∧
    (let s := withRoute (routeOf .field .request .answer) State.reset
     GoesToLookup request s ∧ lookup request s = some 0 ∧
       s.tables.route.live[(0 : RouteId)].action = .answer) ∧
    (let f : RoutedFrame := { request with broadcast := true, own := false }
     f.isBroadcastRequest = true ∧ lookup f forwarding = some 0) ∧
    (let f : RoutedFrame := { request with cls := .notice }
     let s := withRoute (routeOf .field .notice .forward) State.reset
     f.isOwnRequest = false ∧ f.isBroadcastRequest = false ∧ f.isHostReply = false ∧ lookup f s = some 0 ∧
       s.tables.route.live[(0 : RouteId)].action = .forward) ∧
    (let f : RoutedFrame := { reply with cls := .notice }
     let s := withRoute { routeOf .host .notice .forward with feed := true } State.reset
     f.isOwnRequest = false ∧ f.isBroadcastRequest = false ∧ f.isHostReply = false ∧ lookup f s = some 0 ∧
       s.tables.route.live[(0 : RouteId)].feed = true) := by decide +kernel

/-- A retry; Replies with another station and with a tag nobody holds. -/
theorem meets_RetriesAndUnsolicitedReplies :
    (let s := withExchange (.waiting opened) State.reset
     request.isOwnRequest = true ∧ isKeyListRequest request s = false ∧ waitingWith 9 s = some 2 ∧
       s.exchanges[(2 : ExchangeId)] = .waiting opened) ∧
    reply.isHostReply = true ∧ waitingWith 9 State.reset = none ∧ lateWith 9 State.reset = none ∧
    ({ reply with own := false } : RoutedFrame).isHostReply = true := by decide +kernel

/-- A Waiting entry's Reply won by Forward, by Drop, by an entry that captures and feeds, and by none; a Late one in a
state that composes notices and in one that does not, with a winner that captures and without one. -/
theorem meets_HostReplyRule :
    (∀ e ∈ [routeOf .host .reply .forward, routeOf .host .reply .drop,
        { routeOf .host .reply .forward with capture := true, feed := true }],
      let s := withRoute e (withExchange (.waiting opened) State.reset)
      reply.isHostReply = true ∧ reply.own = true ∧ waitingWith 9 s = some 2 ∧ lookup reply s = some 0 ∧
        s.tables.route.live[(0 : RouteId)] = e ∧ e.action ≠ .answer) ∧
    lookup reply (withExchange (.waiting opened) State.reset) = none ∧
    waitingWith 9 (withExchange (.waiting opened) State.reset) = some 2 ∧
    (∀ l ∈ [Liveness.coldHold, .running],
      let s := inState l (withExchange (.late opened ⟨40, 1000⟩) State.reset)
      waitingWith 9 s = none ∧ lateWith 9 s = some 2 ∧
        s.exchanges[(2 : ExchangeId)] = .late opened ⟨40, 1000⟩ ∧
        s.live.state.composesNotices = (l == .running) ∧ lookup reply s = none ∧
        lookup reply (withRoute { routeOf .host .reply .forward with capture := true } s) = some 0) := by
  decide +kernel

/-- A Request without a winner while the host is not up and while it is, with a Free entry, a Late one, a full queue and
a full Exchange Table; a keyTopic request; a broadcast Request and a field Notice without a winner. -/
theorem meets_RepliesWhileHostIsDown :
    GoesToLookup request State.reset ∧ lookup request State.reset = none ∧ hostUp State.reset = false ∧
    State.reset.fieldPort.queue.length < 16 ∧
    ({ request with topic := 240 } : RoutedFrame).isOwnRequest = true ∧
    isKeyListRequest { request with topic := 240 } State.reset = true ∧
    (let up := inState .running State.reset
     GoesToLookup request up ∧ lookup request up = none ∧ hostUp up = true ∧ up.hostPort.queue.length < 16 ∧
       lateWith 9 up = none ∧ freeExchange up = some 0 ∧ 16 ≤ (hostQueued 16 up).hostPort.queue.length ∧
       GoesToLookup request (hostQueued 16 up) ∧
       lateWith 9 (withExchange (.late opened ⟨40, 1000⟩) up) = some 2 ∧
       (let full : State := { up with
          exchanges := Vector.ofFn fun i => .waiting { opened with tag := byte (20 + i) } }
        GoesToLookup request full ∧ lateWith 9 full = none ∧ freeExchange full = none)) ∧
    (let f : RoutedFrame := { request with broadcast := true, own := false }
     f.isBroadcastRequest = true ∧ lookup f State.reset = none) ∧
    (let f : RoutedFrame := { request with cls := .notice }
     f.isOwnRequest = false ∧ f.isBroadcastRequest = false ∧ f.isHostReply = false ∧
       lookup f State.reset = none) := by decide +kernel

/-- A topic without an entry, an Empty half, halves with 15 and 16 pins, each for the exchange-full path as for the two
others; a queue of 15, and a full one that refuses a descriptor of each source. -/
theorem meets_ComposedReplyRule :
    proxyFor 14 State.reset = none ∧
    (let s := withProxy {} State.reset
     proxyFor 14 s = some 2 ∧ (s.proxy[(2 : ProxyId)].get s.proxy[(2 : ProxyId)].active).filled = false) ∧
    ([15, 16].map fun n =>
      let s := withProxy (halfFilled n) State.reset
      (proxyFor 14 s, (s.proxy[(2 : ProxyId)].get s.proxy[(2 : ProxyId)].active).filled,
        decide ((s.proxy[(2 : ProxyId)].get s.proxy[(2 : ProxyId)].active).pins < 16))) =
      [(some 2, true, true), (some 2, true, false)] ∧
    ReplyPurpose.expiry ≠ .exchangeFull ∧ ReplyPurpose.answer ≠ .exchangeFull ∧
    16 ≤ (fieldQueued 16 State.reset).fieldPort.queue.length ∧
    (fieldQueued 15 State.reset).fieldPort.queue.length < 16 := by
  decide +kernel

/-- A pinned half, and a command that a next state follows without the resets the statement leaves out. -/
theorem meets_PinnedHalvesKeepTheirBytes :
    let s := withProxy (halfFilled 1) State.reset
    exec .tachPulse s = .next (after .tachPulse s) ∧ 0 < (s.proxy[(2 : ProxyId)].get .half0).pins ∧
    s.mgmt.resetPending = none ∧ s.hostPort.queue.length < 16 :=
  ⟨rfl, by decide +kernel⟩

theorem meets_HostTransmitStartRule :
    let s := enqueueHost 0 State.reset
    s.hostPort.sending = none ∧ s.hostPort.queue = [0] := by decide +kernel

/-- 22 bit times reached exactly, one twelfth of a bit time less, and a line where a character has begun. -/
theorem meets_FieldTransmitStartRule :
    (let s := enqueueFieldBuffer 0 (setRx .field { silence := 264, rate := .r9600 } State.reset)
     s.fieldPort.sending = none ∧ s.fieldPort.queue = [.buffer 0] ∧ s.fieldPort.rx.assembler = .idle ∧
       s.fieldPort.rx.busy = false ∧ 264 ≤ s.fieldPort.rx.silence) ∧
    silentFor22 { silence := 264, rate := .r9600 } = true ∧
    silentFor22 { silence := 263, rate := .r9600 } = false ∧
    silentFor22 { silence := 264, rate := .r9600, busy := true } = false := by decide +kernel

/-- A host frame that is no reset's reply; field items of each kind are data of the state, met by writing them. -/
theorem meets_TransmissionEndReleases :
    (let s : State := { State.reset with hostPort.sending := some ⟨0, []⟩ }
     s.hostPort.sending = some ⟨0, []⟩ ∧ s.mgmt.resetPending ≠ some 0) ∧
    ([.buffer 0, .reply ⟨1, 14, 9, ⟨false, false, false, false⟩, .half 2 .half0⟩,
      .reply ⟨1, 240, 9, ⟨false, false, false, true⟩, .keyList 0 [(5, 3)] false⟩].map fun i =>
        fieldDirection { State.reset with fieldPort.sending := some ⟨i, []⟩ }) = [true, true, true] := by
  decide +kernel

/-- A queued key event. -/
def keyQueued (s : State) : State := { s with keyUnit.queue := [⟨5, .press, false, 100, false⟩] }

/-- The four conditions together, and each one failing; the other notices in each of the three states and in one that
composes none, with and without a buffer and a place. -/
theorem meets_KeyNoticeRule :
    (let s := keyQueued (inState .running State.reset)
     hostUp s = true ∧ s.keyUnit.queue ≠ [] ∧ 0 < freeCount s ∧ s.hostPort.queue.length < 16) ∧
    hostUp (keyQueued State.reset) = false ∧ State.reset.keyUnit.queue = [] ∧
    freeCount (withFree 0 State.reset) = 0 ∧ freeCount (withFree 1 State.reset) = 1 ∧
    ([Liveness.booting, .running, .warned, .stopping].map fun l =>
      decide ((inState l State.reset).live.state ∈ [.booting, .running, .warned])) = [true, true, true, false] ∧
    16 ≤ (hostQueued 16 State.reset).hostPort.queue.length ∧
    (hostQueued 15 State.reset).hostPort.queue.length < 16 := by decide +kernel

/-- A Waiting and a Late entry. -/
theorem meets_ExchangeTimerRules :
    (withExchange (.waiting opened) State.reset).exchanges[(2 : ExchangeId)] = .waiting opened ∧
    (withExchange (.late opened ⟨40, 1000⟩) State.reset).exchanges[(2 : ExchangeId)] = .late opened ⟨40, 1000⟩ := by
  decide +kernel

/-- A due cycleOff, with readiness Ready and not, and a heater that the host's power then blocks. -/
theorem meets_LivenessTimerRules :
    livenessTimerDue .cycling (timedOut .cycling) = true ∧ (timedOut .cycling).temp.readiness ≠ .ready ∧
    livenessTimerDue .cycling { timedOut .cycling with temp.readiness := .ready } = true ∧
    (let s : State := { timedOut .cycling with temp.readiness := .ready }
     hostPowerEnable s = false ∧ blocksOne s (after .cycleOffExpiry s) = true) := by decide +kernel

/-- Both timers due; a budget one short of maxRestarts and one at it; a failed-restart count that escalates; three
Waiting entries, two of one age, that WARNED leaves, and BOOTING, which is not HostUp. -/
theorem meets_CountedRestartRule :
    livenessTimerDue .booting (timedOut .booting) = true ∧ livenessTimerDue .warned (timedOut .warned) = true ∧
    (settings (timedOut .warned)).maxRestarts.toNat = 5 ∧
    ([4, 5].map fun n => decide ((settings (timedOut .warned)).maxRestarts.toNat ≤
      ((List.replicate n (0 : Word)).dropWhile fun e =>
        decide ((settings (timedOut .warned)).budgetWindow.toNat < elapsed e (timedOut
            .warned).clock.sec)).length)) =
      [false, true] ∧
    (satAdd (0 : Counter) 1).toNat < (settings (timedOut .warned)).resetEscalation.toNat ∧
    (settings (timedOut .warned)).resetEscalation.toNat ≤ (satAdd (1 : Counter) 1).toNat ∧
    (let s := answering (timedOut .warned)
     livenessTimerDue .warned s = true ∧ hostUp s = true ∧ hostUp (after .warnGraceExpiry s) = false ∧
       waitingByAge s.clock s = [5, 1, 2] ∧ s.exchanges[(6 : ExchangeId)].isLate = true ∧
       (after .warnGraceExpiry s).exchanges[(5 : ExchangeId)] = .late ⟨10, 15, 10, 40, 1⟩ ⟨30, 1000⟩) ∧
    hostUp (timedOut .booting) = false := by decide +kernel

theorem meets_LatchedIsLeftOnlyByRelease :
    let s := commanded .host 0x0B [] (inState .latched State.reset)
    exec (.hostRelease .host) s = .next (after (.hostRelease .host) s) ∧ s.live.state = .latched ∧
      (after (.hostRelease .host) s).live.state ≠ .latched :=
  ⟨rfl, by decide +kernel⟩

/-- The factory curve, at the first and the last code of a segment. -/
theorem meets_ConversionRule :
    (∀ i : Fin 17, -500 ≤ factoryCurveA[i] ∧ factoryCurveA[i] ≤ 1500) ∧ 9 < 16 ∧ 0 < 256 ∧ 255 < 256 := by decide

/-- The least and the greatest valid code, and a fault code on each side; 99 and 100 ms; a powered host that the
sample makes Hot; a channel that enters and one that leaves Faulted; a learn that the loss of Board abandons; a
stand-in and an entry into cold fallback; a host that is up and waits for answers as it becomes Hot, and HOT HOLD left
for POWERING with a heater not allowed; Hot raised, cleared below resumeTemp, and cleared for want of a value. -/
theorem meets_TemperatureSampleRule :
    ([15, 16, 4079, 4080].map codeValid) = [false, true, true, false] ∧
    elapsed State.reset.temp.lastSample (atMs 99 State.reset).clock.ms = 99 ∧
    elapsed State.reset.temp.lastSample (atMs 100 State.reset).clock.ms = 100 ∧
    (let s := atMs 100 (inState .running State.reset)
     s.temp.hot = false ∧ (after (.temperatureSample 300 300 300) s).temp.hot = true ∧ hostPowerEnable s = true) ∧
    ((Channel.valid 5).isFaulted = false ∧ ((Channel.valid 5).sampled factoryCurveA 15).isFaulted = true ∧
      ((Channel.faulted none).sampled factoryCurveA 16).isFaulted = false) ∧
    (let s := { boardAir 5 5 State.reset with fan := { learn := .learning ⟨0, 120000⟩ } }
     let c := sampleChannel .air 2410 (sampleChannel .glass 2410 (sampleChannel .board 15 s))
     s.fan.learn.isLearning = true ∧ s.temp.board.isValid = true ∧ c.temp.board.isValid = false ∧
       c.temp.air.isValid = true ∧ coldFallback c = false) ∧
    (let s := { boardAir 5 5 State.reset with temp.glass := .valid 5 }
     coldFallback s = false ∧ coldFallback (sampleChannels 15 15 15 s) = true) ∧
    (let s := atMs 100 (answering (inState .running State.reset))
     hostUp s = true ∧ hostUp (after (.temperatureSample 300 300 300) s) = false ∧
       waitingByAge s.clock s = [5, 1, 2]) ∧
    (let s := atMs 100 (withSetting 26 0 (inState .coldHold
       { boardAir 100 100 State.reset with temp.glass := .valid 100 }))
     hostPowerEnable s = false ∧ blocksOne s (after (.temperatureSample 1500 1500 1500) s) = true) ∧
    ([(false, boardAir 799 5 State.reset), (false, boardAir 800 5 State.reset), (true, boardAir 700 5 State.reset),
      (true, boardAir 699 5 State.reset), (true, State.reset), (false, State.reset)].map fun p =>
        (evaluateHot { p.2 with temp.hot := p.1 }).temp.hot) = [false, true, true, false, false, false] := by
  decide +kernel

/-- Both working values at their minimums, one tenth below, at the margin and one tenth below it; readyDwell 0; cold
fallback one millisecond before its time and at it, and with a Dwelling to end; a due sample, one that clears Hot in
HOT HOLD, and one that makes readiness Ready in COLD HOLD; a dwell whose end powers the host with a heater not allowed;
a Ready lost, a Dwelling abandoned and a grant in cold fallback. -/
theorem meets_ReadinessRule :
    ([0, -1, -20, -21].map fun b =>
      let s : State := { State.reset with temp := { board := .valid b, glass := .valid (-100) } }
      (workingBoard s, workingGlass s,
        decide ((settings s).bootMinTemp ≤ b), decide ((settings s).bootMinTemp - (settings s).readyHyst ≤ b))) =
      [(some 0, some (-100), true, true), (some (-1), some (-100), false, true),
        (some (-20), some (-100), false, true), (some (-21), some (-100), false, false)] ∧
    0 < (settings State.reset).readyDwell ∧ (settings (withSetting 26 0 State.reset)).readyDwell ≤ 0 ∧
    (⟨0, 60000⟩ : Timer).length ≤ ((atMs 60000 State.reset).clock.ms - 0).toNat ∧
    coldFallback State.reset = true ∧ State.reset.temp.fallbackStart = some 0 ∧
    (let whole := (settings State.reset).coldFallback.toNat * 60000
     ([whole - 1, whole].map fun n => decide (whole ≤ ((atMs n State.reset).clock.ms - 0).toNat)) = [false, true]) ∧
    (let s := { State.reset with temp.readiness := .dwelling, temp.dwell := some ⟨0, 60000⟩ }
     coldFallback s = true ∧ s.temp.readiness = .dwelling) ∧
    (let s := atMs 100 (inState .hotHold { boardAir 600 5 State.reset with temp.glass := .valid 5, temp.hot := true })
     let u := { s with temp.board := .valid 100 }
     100 ≤ elapsed s.temp.lastSample s.clock.ms ∧ (after (.temperatureSample 2410 2410 2410) u).temp.hot = false ∧
       u.live.state = .hotHold ∧ u.temp.hot = true) ∧
    (let s := atMs 100 (withSetting 26 0 (inState .coldHold
       { boardAir 100 100 State.reset with temp.glass := .valid 100 }))
     (after (.temperatureSample 1500 1500 1500) s).live.state = .powering ∧ s.temp.readiness ≠ .ready) ∧
    (let s := atMs 60000 { State.reset with temp := { readiness := .dwelling, dwell := some ⟨0, 60000⟩ } }
     s.live.state = .coldHold ∧ s.temp.hot = false ∧ blocksOne s (after .dwellExpiry s) = true) ∧
    ([Readiness.ready, .dwelling].map fun r =>
      let s : State := { State.reset with temp := { board := .valid (-21), glass := .valid 0, readiness := r } }
      (coldFallback s, (evaluateReadiness s.clock s).temp.readiness)) = [(false, .notReady), (false, .notReady)] ∧
    (let s := atMs 1800000 State.reset
     coldFallback s = true ∧ s.temp.readiness ≠ .ready ∧ (evaluateReadiness s.clock s).temp.readiness = .ready) := by
  decide +kernel

/-- An absent and a present working value; the event due at 900 ms and not at 899. -/
theorem meets_DemandRule :
    heaterValue State.reset .board = none ∧ heaterValue coldCabinet .glass = some (-300) ∧
    900 ≤ elapsed coldCabinet.heat.periodStart (atMs 900 coldCabinet).clock.ms ∧
    elapsed coldCabinet.heat.periodStart (atMs 899 coldCabinet).clock.ms < 900 ∧
    (atMs 900 coldCabinet).heat.demandTaken = false := by decide +kernel

/-- Allocations that keep the gaps, with the demands at and just over what is available, and the last g steps. -/
theorem meets_AllocationRule :
    (⟨54, 40, 3⟩ : Allocation).Spaced ∧ (⟨97, 0, 3⟩ : Allocation).Spaced ∧ 50 + 44 ≤ 100 - 2 * 3 ∧
    100 - 2 * 3 < 50 + 45 ∧ 100 ≤ 97 + 3 ∧
    boardOnAt ⟨54, 40, 3⟩ 53 = true ∧ glassOnAt ⟨54, 40, 3⟩ 57 = true := by decide +kernel

/-- The window's end and a millisecond before it; a fan in each state at the boundary, one that it takes out of Off and
one that it takes back; the airflow clock at 119, 120 and 130 s. -/
theorem meets_HeatBoundaryRule :
    1000 ≤ elapsed State.reset.heat.periodStart (atMs 1000 State.reset).clock.ms ∧
    elapsed State.reset.heat.periodStart (atMs 999 State.reset).clock.ms < 1000 ∧
    (0 < (commandedDuty (inState .running State.reset)).1 ∧ State.reset.fan.state = .off) ∧
    (let s := { boardAir (-300) 5 (inState .running State.reset) with fan.state := .running }
     (commandedDuty s).1 = 0 ∧ s.fan.state ≠ .off ∧ s.fan.state ≠ .failed) ∧
    ([119, 120, 125, 130].map fun clock => decide (120 ≤ clock ∧ (clock - 120) % 10 = 0)) =
      [false, true, false, true] := by decide +kernel

/-- The last step of the period and the time after it; the line at both levels. -/
theorem meets_HeaterLinesRule :
    elapsed State.reset.heat.periodStart (atMs 999 State.reset).clock.ms / 10 = 99 ∧
    elapsed State.reset.heat.periodStart (atMs 1000 State.reset).clock.ms / 10 = 100 ∧
    State.reset.heat.cutoffLine = false ∧ (after .cutoffActive State.reset).heat.cutoffLine = true :=
        by decide +kernel

/-- Four stalled boundaries and three, two kicks and three, and a learn whose 120 s have run; the curve at fanFull, at
fanStart, in its hysteresis and below it; no learned baseline; the index at clogLimit and one above it, with and
without the warning. -/
theorem meets_FanRules :
    (let f : FanDrive := { state := .running, commanded := 65, stallRun := 4, goodRun := 4, kicks := 2 }
     f.commanded ≠ 0 ∧ f.stallRun = 4 ∧ 4 ≤ f.goodRun ∧ f.kicks < 3 ∧ 3 ≤ ({ f with kicks := 3 } : FanDrive).kicks)
         ∧
    (let f : FanDrive := { state := .running, commanded := 65, stallRun := 3, goodRun := 3 }
     f.stallRun < 4 ∧ f.goodRun < 4 ∧ ({ f with commanded := 0 } : FanDrive).commanded = 0) ∧
    (let s : State := atMs 120000 { State.reset with
       temp := { board := .valid 300, air := .valid 180 }, fan := { learn := .learning ⟨0, 120000⟩ } }
     s.fan.learn = .learning ⟨0, 120000⟩ ∧ 120000 ≤ (s.clock.ms - 0).toNat ∧ s.temp.board = .valid 300 ∧
       s.temp.air = .valid 180) ∧
    (let t := factorySettings
     ([t.fanFull, t.fanStart, t.fanStart - 20, t.fanStart - 21].map fun x =>
       (decide (t.fanFull ≤ x), decide (t.fanStart ≤ x), decide (t.fanStart - 20 ≤ x))) =
       [(true, true, true), (false, true, true), (false, false, true), (false, false, false)]) ∧
    (settings State.reset).baselineLearned = 0 ∧
    ([(settings State.reset).clogLimit, (settings State.reset).clogLimit + 1].map fun index =>
      let s := boardAir index 0 (withSetting 48 1 State.reset)
      ((settings s).baselineLearned, decide (max (-1000) (min 1000 (index - 0 - (settings s).baselineDelta)) ≤
        (settings s).clogLimit))) = [(1, true), (1, false)] := by decide +kernel

/-- A keypad with one key in each state and no rectangle. -/
def mixedKeys : SampleView :=
  ⟨(((((Vector.replicate 48 KeyState.up).set 0 (.pressing 2)).set 9 (.down 0)).set 18 (.releasing 2 0)).set 27
    (.stuck 2)).set 36 .ambiguous, 0, 3, 3, 30000, 30001⟩

/-- Each state of a key, no rectangle, the press threshold at its least, and a press one millisecond over stuckTime; a
key Up, and one at its threshold and one below it, that three Down corners make a rectangle with. -/
theorem meets_KeyReadingRule :
    ([45, 0, 9, 18, 27, 36].map fun p => (mixedKeys.keys[(p : KeyPos)])) =
      [.up, .pressing 2, .down 0, .releasing 2 0, .stuck 2, .ambiguous] ∧
    ([45, 0].map fun p => (completesRectangle (downBefore mixedKeys.keys) p,
      completesRectangle (pressCorner mixedKeys.keys mixedKeys.raw mixedKeys.press) p)) =
      [(false, false), (false, false)] ∧
    mixedKeys.stuckLimit ≠ 0 ∧ mixedKeys.stuckLimit < (mixedKeys.now - 0).toNat ∧ 1 * 8 + 1 < 48 ∧
    completesRectangle (fun p => p = 0 ∨ p = 1 ∨ p = 8) ⟨1 * 8 + 1, by omega⟩ = true ∧
    (let corners : Vector KeyState 48 :=
       (((Vector.replicate 48 KeyState.up).set 0 (.down 0)).set 1 (.down 0)).set 8 (.down 0)
     corners[(9 : KeyPos)] = .up ∧ completesRectangle (downBefore corners) 9 = true ∧
       ([1, 2].map fun n =>
         let v : SampleView := ⟨corners.set 9 (.pressing n), 0x303, 3, 3, 0, 5⟩
         (decide (n + 1 < v.press), completesRectangle (pressCorner v.keys v.raw v.press) 9)) =
         [(true, true), (false, true)]) := by decide +kernel

/-- Before and at the interval; Flooded; five and six pressed positions; a quiet run one millisecond short of floodClear
and at it; a first sample, and one that changes the debounce set; working Glass at keyColdTemp and one
tenth below it. -/
theorem meets_KeypadSampleRule :
    elapsed State.reset.keypad.lastSample (atMs 4 State.reset).clock.ms < State.reset.keypad.interval ∧
    State.reset.keypad.interval ≤ elapsed State.reset.keypad.lastSample (atMs 5 State.reset).clock.ms ∧
    pressedCount 0x1F = 5 ∧ (pressedCount 0x3F : Int) = (settings State.reset).floodCount ∧
    ({ State.reset with keypad.flooded := true } : State).keypad.flooded = true ∧
    (let quiet := (settings State.reset).floodClear.toNat
     ([quiet - 1, quiet].map fun n => decide (quiet ≤ elapsed (0 : Word) (atMs n State.reset).clock.ms)) =
       [false, true]) ∧
    State.reset.keypad.lastSet = none ∧
    (let s := { State.reset with keypad.lastSet := some (chooseSet { boardAir 300 300 State.reset with
       temp.glass := .valid 300 }) }
     s.keypad.lastSet ≠ some (chooseSet s)) ∧
    ([-100, -101].map fun g =>
      let s := { State.reset with temp.glass := .valid g }
      (workingGlass s, decide ((settings s).keyColdTemp ≤ g))) = [(some (-100), true), (some (-101), false)] := by
  decide +kernel

/-- The host up and down; a queue of 15 and of 16, a list of 7 and of 8; a repeat timer that has run; a Press outcome
with a code and without one, and a Release with a record and without one. -/
theorem meets_KeyDeliveryRule :
    hostUp (inState .warned State.reset) = true ∧ hostUp (inState .booting State.reset) = false ∧
    (List.replicate 15 (⟨5, .press, false, 0, false⟩ : KeyEvent)).length < 16 ∧
    16 ≤ (List.replicate 16 (⟨5, .press, false, 0, false⟩ : KeyEvent)).length ∧
    (List.replicate 7 (⟨5, 0, .pending⟩ : FieldKeyEvent)).length < 8 ∧
    8 ≤ (List.replicate 8 (⟨5, 0, .pending⟩ : FieldKeyEvent)).length ∧
    (let s : State := atMs 500 { State.reset with
       keyUnit.records := (Vector.replicate 48 none).set 4 (some ⟨5, true, some ⟨0, 500⟩⟩) }
     s.keyUnit.records[(4 : KeyPos)] = some ⟨5, true, some ⟨0, 500⟩⟩ ∧ 500 ≤ (s.clock.ms - 0).toNat ∧
       s.keyUnit.records[(5 : KeyPos)] = none) ∧
    (let s := { State.reset with
       tables.keyMap.live := State.reset.tables.keyMap.live.set 4 ⟨5, true, false, .always⟩ }
     let e := s.tables.keyMap.live[(4 : KeyPos)]
     e.code ≠ 0 ∧ e.condition.holds s = true ∧ ({ e with code := 0 } : KeyMapEntry).code = 0) := by
  decide +kernel

/-- A hold that has run; a valid chord with both members held, with one Up, and one that is not valid, in each state. -/
theorem meets_ChordFireRule :
    (let s : State := atMs 500 { State.reset with
       keyUnit.chords := (Vector.replicate 8 .idle).set 3 (.holding ⟨0, 500⟩) }
     s.keyUnit.chords[(3 : ChordId)] = .holding ⟨0, 500⟩ ∧ 500 ≤ (s.clock.ms - 0).toNat) ∧
    (let s := { State.reset with
       tables.chord.live := State.reset.tables.chord.live.set 3 ⟨true, 0, 1, none, 500, .always, .flagPattern, 1⟩
       keypad.keys := (State.reset.keypad.keys.set 0 (.down 7)).set 1 (.releasing 1 7) }
     s.tables.chord.live[(3 : ChordId)].valid = true ∧ s.keypad.keys[(0 : KeyPos)] = .down 7 ∧
       s.keypad.keys[(1 : KeyPos)] = .releasing 1 7 ∧ s.keyUnit.chords[(3 : ChordId)] = .idle ∧
       s.keypad.keys[(2 : KeyPos)] = .up) ∧
    ({ State.reset.tables.chord.live[(3 : ChordId)] with valid := false } : ChordEntry).valid = false := by
  decide +kernel

/-- A powered host that is up and waits for answers, one that is not up; OFF and LATCHED, with and without Ready; a
release to POWERING with a heater not allowed. -/
theorem meets_RestartAndReleaseRule :
    hostPowerEnable (inState .running State.reset) = true ∧ hostUp (inState .running State.reset) = true ∧
    hostPowerEnable (inState .stopping State.reset) = true ∧ (inState .off State.reset).live.state = .off ∧
    (let s := inState .latched { State.reset with
       temp := { board := .valid 0, glass := .valid 0, readiness := .ready } }
     s.live.state = .latched ∧ s.temp.readiness = .ready ∧ coldFallback s = false ∧ s.temp.hot = false ∧
       blocksOne s (releaseHost s.clock s) = true) ∧
    (let s := answering (inState .running State.reset)
     hostUp s = true ∧ hostPowerEnable s = true ∧ waitingByAge s.clock s = [5, 1, 2] ∧
       hostUp (uncountedRestart .operatorChord true s.clock s) = false) := by
  decide +kernel

/-- Either port with 15 items queued and with 16. -/
theorem meets_ManagementReplyRule :
    (⟨0, .host, {}, 7, []⟩ : Command).port = .host ∧ (⟨0, .field, {}, 7, []⟩ : Command).port = .field ∧
    (List.replicate 15 (0 : BufferId)).length < 16 ∧ 16 ≤ (List.replicate 16 (0 : BufferId)).length ∧
    (List.replicate 15 (FieldItem.buffer 0)).length < 16 ∧ 16 ≤ (List.replicate 16 (FieldItem.buffer 0)).length :=
        by
  decide +kernel

/-- Every command that the permission rule refuses is taken from its port, the permit absent and Frozen clear or
set as the clauses say. -/
theorem meets_PermissionRule :
    State.reset.mgmt.permit = none ∧ State.reset.mgmt.frozen = false ∧
    (∀ code ∈ [0x03, 0x04, 0x05, 0x06, 0x07, 0x08, 0x09, 0x0A, 0x0B, 0x0D, 0x0F, 0x10, 0x11],
      ∃ (c : Command) (s' : State), Takes code .field c (commanded .field code [] State.reset) s' ∧ c.args = []) ∧
    (∃ (c : Command) (s' : State),
      Takes 0x0E .field c (commanded .field 0x0E [1, 1, 0] State.reset) s' ∧ c.args = [1, 1, 0]) ∧
    (∀ code ∈ [0x03, 0x04, 0x05, 0x0D, 0x0F, 0x10], ∃ (c : Command) (s' : State),
      Takes code .host c (commanded .host code [] { State.reset with mgmt.frozen := true }) s' ∧ c.args = []) := by
  refine ⟨rfl, rfl, fun code h => takes_of_args ?_, takes_of_args (by decide +kernel),
    fun code h => takes_of_args ?_⟩
  · revert code; decide +kernel
  · revert code; decide +kernel

theorem meets_FrozenStaysUntilReset :
    let s : State := { State.reset with mgmt.frozen := true }
    exec .tachPulse s = .next (after .tachPulse s) ∧ s.mgmt.frozen = true := ⟨rfl, rfl⟩

/-- Both parts of STATUS, the first and the last index or counter of the other reading commands in both copies, a log
record; a counter group cleared; a wrong length, part, index, copy, table, record, group, clear and first counter. -/
theorem meets_ReadingCommandsRule :
    (∀ x ∈ [(0x01, [(0 : Byte)]), (0x01, [1]), (0x02, [6, byte (0 : Fin 61), 0]), (0x02, [6, byte (60 : Fin 61),
        1]),
        (0x02, [1, byte (31 : RouteId), byte (bit false)]), (0x02, [2, byte (47 : KeyPos), byte (bit true)]),
        (0x02, [7, byte (15 : ProxyId), byte (bit true)]), (0x0C, [byte 0]), (0x0E, [1, 0, byte (24 : Fin 25)]),
        (0x0E, [2, 1, 6]), (0x01, []), (0x01, [2]), (0x02, [1, 32, 0]), (0x02, [1, 31, 2]), (0x02, [0, 0, 0]),
        (0x02, [8, 0, 0]), (0x0C, [1]), (0x0E, [0, 0, 0]), (0x0E, [8, 0, 0]), (0x0E, [2, 2, 0]), (0x0E, [2, 0, 7])],
      ∃ (c : Command) (s' : State), Takes x.1 .host c (commanded .host x.1 x.2 State.reset) s' ∧ c.args = x.2) ∧
    (let s := after .resetLineReset (inState .running State.reset)
     0 < s.log.records.length ∧ s.log.records.reverse[0]? = s.log.records[0]?) ∧
    ((State.reset.counters.group 2).map List.length = some 7 ∧ State.reset.counters.group 0 = none ∧
      State.reset.counters.group 8 = none) ∧
    ([0, 1, 7, 8].map entryCount) = [0, 32, 16, 0] := by
  refine ⟨fun x h => takes_of_args ?_, by decide +kernel, by decide +kernel, by decide +kernel⟩
  revert x; decide +kernel

/-- A setting written below its range, a coded one negative, and
each table discarded, from a permitted Field Link; an entry of every other
table at its last index, with a code or a member at the end of its list and past it; a table, an index and a length out
of range. -/
theorem meets_StagingRule :
    Permitted .field (permitted State.reset) ∧ (permitted State.reset).mgmt.frozen = false ∧
    (∀ x ∈ [(0x03, [(6 : Byte), byte (60 : Fin 61), 0, 0, 0, 0]),
        (0x03, [6, byte (0 : Fin 61), 255, 255, 255, 255]), (0x05, [1]), (0x05, [7]), (0x05, [0]), (0x05, [8]),
        (0x03, [1, byte (31 : RouteId), 1, 3, 2, 0, 255, 15, 2, 0, 0]),
        (0x03, [1, byte (31 : RouteId), 1, 4, 2, 0, 255, 15, 2, 0, 0]),
        (0x03, [2, byte (47 : KeyPos), 5, 3, 15]),
        (0x03, [3, byte (7 : ChordId), 1, 0, 47, 255, 0, 0, 15, 5, 0, 0]),
        (0x03, [3, byte (7 : ChordId), 1, 0, 47, 47, 0, 0, 15, 5, 0, 0]),
        (0x03, [3, byte (7 : ChordId), 1, 0, 47, 48, 0, 0, 15, 5, 0, 0]),
        (0x03, [3, byte (7 : ChordId), 1, 0, 48, 255, 0, 0, 15, 5, 0, 0]),
        (0x03, [4, byte (16 : Fin 17), 0x7F, 0xFF]), (0x03, [5, byte (16 : Fin 17), 0, 0]),
        (0x03, [7, byte (15 : ProxyId), 1, 14, 0, 30]), (0x03, []), (0x03, [7, 16, 1, 14, 0, 30]),
        (0x03, [7, 15, 1, 14, 0]), (0x03, [8, 0])],
      ∃ (c : Command) (s' : State),
        Takes x.1 .field c (commanded .field x.1 x.2 (permitted State.reset)) s' ∧ c.args = x.2) := by
  refine ⟨by decide +kernel, rfl, fun x h => takes_of_args ?_⟩
  revert x; decide +kernel

/-- COMMIT with store 0 and 1 and with each byte out of range; for each of the four checks a staged table that passes
and one that fails, each Route reason among them; a store that writes. -/
theorem meets_CommitRule :
    Permitted .host State.reset ∧
    (∀ args ∈ [[(1 : Byte), 0], [7, 1], [0, 0], [8, 0], [1, 2]], ∃ (c : Command) (s' : State),
      Takes 0x04 .host c (commanded .host 0x04 args State.reset) s' ∧ c.args = args) ∧
    ([1, 3, 6, 7].map fun table => stagingFault table State.reset.tables) = [none, none, none, none] ∧
    ([{ routeOf .field .request .forward with topicLow := 1, topicHigh := 0 }, routeOf .host .request .answer,
        { routeOf .field .request .forward with feed := true },
        { routeOf .host .reply .drop with capture := true }].map fun e =>
      routeFault (State.reset.tables.route.staging.set 31 e)) =
      [some (31, 1), some (31, 2), some (31, 3), some (31, 4)] ∧
    chordFault (State.reset.tables.chord.staging.set 7 ⟨true, 0, 1, some 0, 500, .always, .noticeOnly, 0⟩) =
      some (7, 1) ∧
    proxyFault ((State.reset.tables.proxy.staging.set 2 ⟨true, 14, 0⟩).set 5 ⟨true, 14, 0⟩) = some (5, 1) ∧
    stagingFault 6 { State.reset.tables with
      settings.staging := State.reset.tables.settings.staging.set 3 1 } = some (3, 1) ∧
    ({ State.reset with store.writing := some (.curveA factoryCurveA) } : State).store.writing.isSome = true := by
  refine ⟨.inl rfl, fun args h => takes_of_args ?_, by decide +kernel, by decide +kernel, by decide +kernel,
    by decide +kernel, by decide +kernel, rfl⟩
  revert args; decide +kernel

/-- A staged entry that keeps its topic, one that changes it, and a half of it with and without a pin; a channel the
new settings do not allow, Blocked already and not; a Budget List that they cut; a chord that holds. -/
theorem meets_SwapRule :
    (let s := withProxy (halfFilled 1) State.reset
     s.tables.proxy.live[(3 : ProxyId)] = s.tables.proxy.staging[(3 : ProxyId)] ∧
       s.tables.proxy.live[(2 : ProxyId)].valid ≠ s.tables.proxy.staging[(2 : ProxyId)].valid ∧
       0 < (s.proxy[(2 : ProxyId)].get .half0).pins ∧ (s.proxy[(2 : ProxyId)].get .half1).pins = 0) ∧
    (let s := inState .running State.reset
     heaterAllowed (swapTable 6 s) .glass = false ∧ heaterAllowed (swapTable 6 s) .board = true ∧
       (s.heat.channel .glass).blocked = false ∧ blocksOne s (swapTable 6 s) = true ∧
       blocksOne { s with heat.glass.blocked := true } (swapTable 6 s) = false) ∧
    (List.replicate 8 (0 : Word)).length - State.reset.tables.settings.staging.maxRestarts.toNat = 3 ∧
    ((Vector.replicate 8 ChordState.idle).set 3 (.holding ⟨0, 500⟩))[(3 : ChordId)] = .holding ⟨0, 500⟩ := by
  decide +kernel

/-- A store that writes each table, and an idle one; a permit one millisecond before its end and at it. -/
theorem meets_StoreAndPermitTimers :
    ([StoreJob.route factoryRoutes, .keyMap factoryKeyMap, .chord factoryChords, .curveA factoryCurveA,
      .curveB factoryCurveB, .settings factorySettings, .proxy factoryProxy].map StoreJob.id) =
      [1, 2, 3, 4, 5, 6, 7] ∧ State.reset.store.writing = none ∧
    (permitted State.reset).mgmt.permit = some ⟨0, 600000⟩ ∧
    ([599999, 600000].map fun n => decide (600000 ≤ ((atMs n State.reset).clock.ms - 0).toNat)) = [false, true] :=
  ⟨rfl, rfl, rfl, by decide +kernel⟩

/-- Payloads of 0 and 30 bytes for a valid entry, each of the four refused arguments at its boundary, and a pattern. -/
theorem meets_WriteProxyAndFlags :
    (withProxy {} State.reset).tables.proxy.live[(2 : ProxyId)].valid = true ∧
    (∀ payload ∈ [([] : List Byte), List.replicate 30 7], ∃ (c : Command) (s' : State),
      Takes 0x06 .host c (commanded .host 0x06 (byte (2 : ProxyId) :: byte payload.length :: payload)
        (withProxy {} State.reset)) s' ∧ c.args = byte (2 : ProxyId) :: byte payload.length :: payload) ∧
    (∀ args ∈ [[(16 : Byte), 0], 2 :: 31 :: List.replicate 30 7, [2, 1], [2, 0, 7], []],
      ∃ (c : Command) (s' : State),
        Takes 0x06 .host c (commanded .host 0x06 args (withProxy {} State.reset)) s' ∧ c.args = args) ∧
    byte (3 : ProxyId) = 3 ∧ (withProxy {} State.reset).tables.proxy.live[(3 : ProxyId)].valid = false ∧
    ∃ (c : Command) (s' : State), Takes 0x07 .host c (commanded .host 0x07 [0x40, 0x09] State.reset) s' ∧
      c.args = [0x40, 0x09] := by
  refine ⟨by decide +kernel, fun payload h => takes_of_args ?_, fun args h => takes_of_args ?_, rfl,
    by decide +kernel, takes_of_args (by decide +kernel)⟩
  · revert payload; decide +kernel
  · revert args; decide +kernel

/-- FEED in every liveness state; windowMin reached exactly and one millisecond short of it; a streak of 1 and of 2, the
latter with answers awaited. -/
theorem meets_FeedRule :
    (∀ l ∈ [Liveness.off, .coldHold, .powering, .booting, .running, .warned, .resetting, .cycling, .stopping,
        .hotHold,
        .latched],
      ∃ (c : Command) (s' : State), Takes 0x08 .host c (commanded .host 0x08 [] (inState l State.reset)) s' ∧
        c.args = []) ∧
    ([0, 1].map fun m => decide ((settings (withSetting 11 m State.reset)).windowMin.toNat ≤
      elapsed State.reset.live.lastHeartbeat (commandIn 0 State.reset).arrival.ms)) = [true, false] ∧
    State.reset.live.earlyStreak < 2 ∧
    ([1, 2].map fun n => decide (2 ≤ { State.reset.live with earlyStreak := n }.earlyStreak)) = [false, true] ∧
    (let s := commanded .host 0x08 [] (withSetting 11 60000 (answering (inState .running State.reset)))
     let u := after (.feed .host) { s with live.earlyStreak := 2 }
     u.live.state = .resetting ∧ u.exchanges[(5 : ExchangeId)].isLate = true) := by
  refine ⟨fun l h => takes_of_args ?_, by decide +kernel⟩
  revert l; decide +kernel

/-- Both kinds of restart and one that is none, delays 0, 1, 600 and 601, and a release; a state of each list,
STOPPING among them; a host that is up and waits for answers. -/
theorem meets_HostPowerCommands :
    Permitted .field (permitted State.reset) ∧
    (∀ x ∈ [(0x09, [(0 : Byte)]), (0x09, [1]), (0x09, [2]), (0x0A, [0, 0]), (0x0A, [0, 1]), (0x0A, [2, 0x58]), (0x0A, [2, 0x59]),
        (0x0B, [])],
      ∀ l ∈ [Liveness.coldHold, .off, .running, .stopping], ∃ (c : Command) (s' : State),
        Takes x.1 .host c (commanded .host x.1 x.2 (inState l State.reset)) s' ∧ c.args = x.2) ∧
    ((2 : Byte) ++ (0x58 : Byte)).toNat = 600 ∧ 600 < ((2 : Byte) ++ (0x59 : Byte)).toNat ∧
    0 < ((0 : Byte) ++ (1 : Byte)).toNat ∧ State.reset.live.state = .coldHold ∧
    hostPowerEnable (inState .stopping State.reset) = true ∧
    (let s := commanded .host 0x0A [0, 1] (answering (inState .running State.reset))
     hostUp s = true ∧ (after (.hostPowerOff .host) s).live.state = .stopping ∧
       (after (.hostPowerOff .host) s).exchanges[(5 : ExchangeId)].isLate = true) := by
  refine ⟨by decide +kernel, fun x h l k => takes_of_args ?_, by decide +kernel⟩
  revert x l; decide +kernel

/-- Each of the four commands taken; no learn and a running one, Board and Air Valid and not; a store and a reset that
make it Busy; a Host Transmit Queue with a place and a full one. -/
theorem meets_OtherCommandsRule :
    (∀ code ∈ [0x0D, 0x0F, 0x10, 0x11], ∃ (c : Command) (s' : State),
      Takes code .host c (commanded .host code [] State.reset) s' ∧ c.args = []) ∧
    (∃ (c : Command) (s' : State),
      Takes 0x0F .host c (commanded .host 0x0F [] (boardAir 300 180 State.reset)) s' ∧ c.args = []) ∧
    State.reset.mgmt.frozen = false ∧ State.reset.fan.learn.isLearning = false ∧
    (LearnState.learning ⟨0, 120000⟩).isLearning = true ∧
    State.reset.temp.board.isValid = false ∧ (boardAir 300 180 State.reset).temp.air = .valid 180 ∧
    State.reset.store.writing = none ∧ State.reset.mgmt.resetPending = none ∧
    (hostQueued 15 State.reset).hostPort.queue.length < 16 ∧
    ({ State.reset with mgmt.resetPending := some 0 } : State).mgmt.resetPending.isSome = true := by
  refine ⟨fun code h => takes_of_args ?_, takes_of_args (by decide +kernel), by decide +kernel⟩
  revert code; decide +kernel

/-- A step from a state inside an invariant that means something there. -/
theorem meets_HeatersSafeKept :
    exec .tachPulse coldCabinet = .next (after .tachPulse coldCabinet) ∧ HeatersSafe coldCabinet :=
  ⟨rfl, by decide +kernel⟩

theorem meets_ExchangeTagsDistinctKept :
    let s := withExchange (.waiting opened) State.reset
    exec .tachPulse s = .next (after .tachPulse s) ∧ ExchangeTagsDistinct s := ⟨rfl, by decide +kernel⟩

theorem meets_KeysFollowHostKept :
    let s := keyQueued (inState .running State.reset)
    exec .tachPulse s = .next (after .tachPulse s) ∧ KeysFollowHost s := ⟨rfl, by decide +kernel⟩

theorem meets_TimerMatchesStateKept :
    exec .tachPulse (timedOut .warned) = .next (after .tachPulse (timedOut .warned)) ∧
    TimerMatchesState (timedOut .warned) := ⟨rfl, by decide +kernel⟩

/-- Settings in range, 16 pins on one half, and a pool with a queued and a free buffer. -/
theorem meets_CapacitiesKept :
    (let s := withProxy (halfFilled 16) State.reset
     exec .tachPulse s = .next (after .tachPulse s) ∧ WithinCapacity s ∧
     SettingsInRange s.tables.settings.live ∧ SettingsInRange s.tables.settings.staging ∧
     StoredSettingsInRange s.store) ∧
    (let s := enqueueHost 0 (setBuffer 0 { state := .working } State.reset)
     exec .tachPulse s = .next (after .tachPulse s) ∧ heldBuffers s = [(0, .queued)] ∧ PoolAccounted s) :=
  ⟨⟨rfl, by decide +kernel, by decide +kernel, by decide +kernel, ⟨trivial, trivial⟩⟩, rfl, by decide +kernel⟩

end Sys2Proof.Tests
end

section
/-! SUPPORT. The Condition Unit and a lookup of the Frame Router, said by their rules, and the statements O12 to O14
(flag patterns, the winner of a lookup, a frame won by Drop). -/

namespace Sys2Proof.Machine

/-! ### Flag patterns (R29) -/

/-- The whole update writes out the list of the eight flags' own updates. -/
theorem getLsbD_applyPattern (p : Half) (f : BitVec 8) (i : Nat) (h : i < 8) :
    (applyPattern p f).getLsbD i = patternedFlag p f i := by
  have hlen : i < ((List.range 8).map (patternedFlag p f)).length := by simpa using h
  calc (applyPattern p f).getLsbD i
      = ((List.range 8).map (patternedFlag p f)).getD i false := BitVec.getLsbD_ofBoolListLE
    _ = patternedFlag p f i := by rw [List.getD_eq_getElem _ _ hlen, List.getElem_map, List.getElem_range]

/-- Settles O12: bit `i` of the whole update is flag `i`'s own update, whose four operations the statement lists. -/
theorem flagPatternRule : Obligations.FlagPatternRule := by
  intro p f i hi
  rw [getLsbD_applyPattern p f i hi, patternedFlag]
  cases p.getLsbD (2 * i + 1) <;> cases p.getLsbD (2 * i) <;> rfl

/-! ### Conditions (R31) -/

/-- With its sense bit clear a condition is the fact that its selector names. -/
@[simp] theorem Condition.holds_plain (n : BitVec 4) (s : State) :
    (⟨n, false⟩ : Condition).holds s = selectorFact s n.toNat := by simp [Condition.holds]

/-- With its sense bit set a condition is the opposite of that fact. -/
@[simp] theorem Condition.holds_inverted (n : BitVec 4) (s : State) :
    (⟨n, true⟩ : Condition).holds s = !selectorFact s n.toNat := by simp [Condition.holds]

/-- The selectors below 8 name the flags. -/
theorem selectorFact_flag (s : State) (n : Nat) (h : n < 8) : selectorFact s n = s.flags.getLsbD n := by
  interval_cases n <;> rfl

theorem Liveness.isHostUp_iff (l : Liveness) : l.isHostUp = true ↔ l = .running ∨ l = .warned := by
  cases l <;> simp [Liveness.isHostUp]

theorem Liveness.isStarting_iff (l : Liveness) : l.isStarting = true ↔ l = .powering ∨ l = .booting := by
  cases l <;> simp [Liveness.isStarting]

/-! ### The winner of a lookup (R37) -/

/-- The tests of R37, one by one. -/
theorem RouteEntry.wins_iff (e : RouteEntry) (f : RoutedFrame) (s : State) :
    e.wins f s = true ↔ e.valid = true ∧ e.source = f.source ∧ e.cls.accepts f.cls = true ∧
      e.station.accepts f.broadcast = true ∧ e.topicLow.toNat ≤ f.topic.toNat ∧
      f.topic.toNat ≤ e.topicHigh.toNat ∧ e.condition.holds s = true := by
  simp [RouteEntry.wins, and_assoc]

/-- A lookup is the search for the lowest index. -/
theorem lookup_eq_find? (f : RoutedFrame) (s : State) :
    lookup f s = Fin.find? fun i => s.tables.route.live[i].wins f s := Fin.find?_eq_find?_finRange.symm

theorem lookup_eq_some_iff (f : RoutedFrame) (s : State) (i : RouteId) :
    lookup f s = some i ↔ s.tables.route.live[i].wins f s = true ∧
      ∀ j : RouteId, j < i → ¬s.tables.route.live[j].wins f s = true := by
  simp only [lookup_eq_find?, Fin.find?_eq_some_iff, Bool.not_eq_true]

theorem lookup_eq_none_iff (f : RoutedFrame) (s : State) :
    lookup f s = none ↔ ∀ i : RouteId, ¬s.tables.route.live[i].wins f s = true := by
  simp only [lookup_eq_find?, Fin.find?_eq_none_iff, Bool.not_eq_true]

/-- A frame that no entry wins takes the default handling (R39). -/
theorem routeByLookup_default (f : RoutedFrame) (m : Option ExchangeId) (s : State) (h : lookup f s = none) :
    routeByLookup f m s = endMatched m (defaultHandling f s) := by
  simp only [routeByLookup, h]

/-- A frame that an entry wins: hit and pattern, capture, action, the exchange ended, feed (R38). -/
theorem routeByLookup_won (f : RoutedFrame) (m : Option ExchangeId) (s : State) (i : RouteId)
    (h : lookup f s = some i) :
    routeByLookup f m s =
      (let e := s.tables.route.live[i]
       routeFeed e f (endMatched m (routeAction e f (routeCapture e f (won i s))))) := by
  simp only [routeByLookup, h, won]

/-- Settles O13: the tests of `fits` are the ones that `RouteEntry.wins` makes, the search stops at the lowest index,
and each selector names its fact. -/
theorem lookupFindsFirstMatch : Obligations.LookupFindsFirstMatch := by
  refine ⟨fun f s => ?_, fun s n => ?_⟩
  · simp only [← RouteEntry.wins_iff]
    exact ⟨lookup_eq_some_iff f s, lookup_eq_none_iff f s, fun h m => routeByLookup_default f m s h⟩
  · simp only [Condition.holds_plain, Condition.holds_inverted]
    refine ⟨trivial, selectorFact_flag s n.toNat, ?_, ?_, ?_, ?_, ?_, ?_, ?_, ?_⟩ <;> rintro rfl
    · exact Liveness.isHostUp_iff _
    · exact Liveness.isStarting_iff _
    · exact beq_iff_eq
    · exact Option.isSome_iff_ne_none
    · exact (Bool.not_eq_true' s.keypad.flooded).to_iff
    all_goals rfl

/-! ### Traffic heartbeats (R82, R85) -/

theorem trafficHeartbeat_feed_off (t : Instant) (s : State) (h : (settings s).trafficFeed = 0) :
    trafficHeartbeat t s = s := by
  simp [trafficHeartbeat, h]

/-- With trafficFeed yes a traffic heartbeat is accepted and counted in the states that hear it. -/
theorem trafficHeartbeat_heard (t : Instant) (s : State) (hf : (settings s).trafficFeed ≠ 0)
    (hs : s.live.state.hears = true) :
    trafficHeartbeat t s = bump Ctr.livenessTrafficHeartbeats (acceptHeartbeat t s) := by
  simp [trafficHeartbeat, hf, hs]

/-- In RUNNING an accepted heartbeat starts the window again. -/
theorem acceptHeartbeat_in_running (t : Instant) (s : State) (h : s.live.state = .running) :
    acceptHeartbeat t s = restartWindow t s := by
  simp only [acceptHeartbeat, h]

/-- Elsewhere an accepted heartbeat moves liveness to RUNNING. -/
theorem acceptHeartbeat_enters_running (t : Instant) (s : State) (h : s.live.state ≠ .running) :
    acceptHeartbeat t s = enterRunning t s := by
  unfold acceptHeartbeat
  split
  · contradiction
  · rfl

/-- The Liveness Controller after a move to RUNNING at `t` (R82). -/
def runningFrom (t : Instant) (s : State) : LivenessController :=
  { s.live with
    state := .running, enteredAt := t.sec, lastHeartbeat := t.ms, earlyStreak := 0, failedRestarts := 0,
    lateReplies := 0, timer := some ⟨t.ms, (settings s).windowMax.toNat⟩ }

/-- RUNNING entered from a powered state: the Liveness Controller, and from BOOTING the Field Key List is emptied
(R73, R82). -/
theorem enterRunning_of_powered (t : Instant) (s : State) (h : s.live.state.isPowered = true) :
    enterRunning t s =
      if s.live.state = .booting then emptyKeyList { s with live := runningFrom t s }
      else { s with live := runningFrom t s } := by
  simp only [enterRunning, enterState_plain .running none t s (.inl h) (.inr rfl), beq_iff_eq]
  rfl

/-- A counted heartbeat takes liveness from BOOTING and WARNED to RUNNING (R82, R85). -/
theorem trafficHeartbeat_enters_running (t : Instant) (s : State) (hf : (settings s).trafficFeed ≠ 0)
    (hs : s.live.state = .booting ∨ s.live.state = .warned) :
    trafficHeartbeat t s = bump Ctr.livenessTrafficHeartbeats
      (if s.live.state = .booting then emptyKeyList { s with live := runningFrom t s }
        else { s with live := runningFrom t s }) := by
  have heard : s.live.state.hears = true := by rcases hs with h | h <;> rw [h] <;> rfl
  have powered : s.live.state.isPowered = true := by rcases hs with h | h <;> rw [h] <;> rfl
  have elsewhere : s.live.state ≠ .running := by rcases hs with h | h <;> rw [h] <;> nofun
  rw [trafficHeartbeat_heard t s hf heard, acceptHeartbeat_enters_running t s elsewhere,
    enterRunning_of_powered t s powered]

/-! ### A frame won by Drop (R38, R44, R46) -/

/-- Only host Replies are captured (R45). -/
theorem routeCapture_of_not_hostReply (e : RouteEntry) (f : RoutedFrame) (s : State) (h : f.isHostReply = false) :
    routeCapture e f s = s := by
  simp [routeCapture, h]

theorem routeFeed_eq (e : RouteEntry) (f : RoutedFrame) (s : State) :
    routeFeed e f s = if e.feed = true ∧ f.source = .host then trafficHeartbeat f.arrival s else s := by
  simp [routeFeed]

/-- A frame without an exchange that an entry wins: hit, pattern, action and feed (R38). -/
theorem routeFrame_won (f : RoutedFrame) (s : State) (i : RouteId) (hg : GoesToLookup f s)
    (hw : lookup f s = some i) :
    routeFrame f s =
      (let e := s.tables.route.live[i]
       let u := routeAction e f (won i s)
       if e.feed = true ∧ f.source = .host then trafficHeartbeat f.arrival u else u) := by
  rw [routeFrame_lookup f s hg, routeByLookup_won f none s i hw]
  simp only [routeCapture_of_not_hostReply _ f _ hg.1, endMatched, routeFeed_eq]

/-- Settles O14: the Drop by the parts of R38, and the heartbeat by the state that hears it. -/
theorem routeDropRule : Obligations.RouteDropRule := by
  refine ⟨fun f s i hg hw hdrop => ?_, fun s now => ⟨?_, fun hf hs => ?_, fun hf hs => ?_⟩⟩
  · simp only [routeFrame_won f s i hg hw, routeAction, hdrop, routeDrop]
  · rintro (hoff | hdeaf)
    · exact trafficHeartbeat_feed_off now s hoff
    · exact trafficHeartbeat_unheard now s (by rwa [← hears_iff, Bool.not_eq_true] at hdeaf)
  · have hears : s.live.state.hears = true := by rw [hs]; rfl
    rw [trafficHeartbeat_heard now s hf hears, acceptHeartbeat_in_running now s hs]
    rfl
  · rw [trafficHeartbeat_enters_running now s hf hs]
    refine ⟨_, rfl, ?_⟩
    split <;> exact ⟨rfl, rfl, rfl, rfl⟩

end Sys2Proof.Machine
end

section
/-! SUPPORT. The conversion of a code on a curve, said by the curve's segments, and the statement O31. -/

namespace Sys2Proof.Machine

/-! ### Conversion (R104, R105) -/

theorem CurveTable.point_eq_getElem (curve : CurveTable) (k : Nat) (hk : k < 17) : curve.point k = curve[k] := by
  simp [CurveTable.point, hk]

/-- A number already within its limits is clamped to itself. -/
theorem clampInt_of_within (lo hi x : Int) (hlo : lo ≤ x) (hhi : x ≤ hi) : clampInt lo hi x = x := by
  simp only [clampInt]
  omega

/-- The step that a code `r` places into a segment takes from the segment's lower point, where the points differ by
`d`: the product over 256, rounded to nearest, half up (R105). -/
def segmentStep (d : Int) (r : Nat) : Int := (d * r + 128) / 256

@[simp] theorem segmentStep_zero (d : Int) : segmentStep d 0 = 0 := by
  simp [segmentStep]

/-- What is left of the product after the step is from -128 up to, but not including, 128. -/
theorem segmentStep_nearest (d : Int) (r : Nat) :
    -128 ≤ d * r - 256 * segmentStep d r ∧ d * r - 256 * segmentStep d r < 128 := by
  simp only [segmentStep]
  omega

/-- A step stays on its segment: it goes from 0 toward `d` and not past it. -/
theorem segmentStep_between (d : Int) (r : Nat) (hr : r < 256) :
    min 0 d ≤ segmentStep d r ∧ segmentStep d r ≤ max 0 d := by
  obtain ⟨hlow, hhigh⟩ := segmentStep_nearest d r
  have hr' : (r : Int) ≤ 256 := by omega
  rcases le_total 0 d with hd | hd
  · have hnonneg : 0 ≤ d * r := mul_nonneg hd (Int.natCast_nonneg r)
    have hle : d * r ≤ d * 256 := mul_le_mul_of_nonneg_left hr' hd
    omega
  · have hnonpos : d * r ≤ 0 := mul_nonpos_of_nonpos_of_nonneg hd (Int.natCast_nonneg r)
    have hge : d * 256 ≤ d * r := mul_le_mul_of_nonpos_left hr' hd
    omega

/-- A code `r` places into segment `k` converts to the lower point and the step, clamped to the temperature range. -/
theorem convert_on_segment (curve : CurveTable) (k r : Nat) (hk : k < 16) (hr : r < 256) :
    convert curve (256 * k + r) = clampInt (-500) 1500 (curve[k] + segmentStep (curve[k + 1] - curve[k]) r) := by
  have hdiv : (256 * k + r) / 256 = k := by omega
  simp only [convert, hdiv, Nat.add_sub_cancel_left, CurveTable.point_eq_getElem curve k (by omega),
    CurveTable.point_eq_getElem curve (k + 1) (by omega), segmentStep]

/-- Settles O31: the step lies between the segment's two points, so the clamp of points in the range does nothing. -/
theorem conversionRule : Obligations.ConversionRule := by
  intro curve k r hk hr hrange lo hi v
  have hlo : -500 ≤ lo ∧ lo ≤ 1500 := hrange ⟨k, by omega⟩
  have hhi : -500 ≤ hi ∧ hi ≤ 1500 := hrange ⟨k + 1, by omega⟩
  have hbetween := segmentStep_between (hi - lo) r hr
  have hv : v = lo + segmentStep (hi - lo) r := by
    calc v = clampInt (-500) 1500 (lo + segmentStep (hi - lo) r) := convert_on_segment curve k r hk hr
      _ = lo + segmentStep (hi - lo) r := clampInt_of_within _ _ _ (by omega) (by omega)
  have hstep : v - lo = segmentStep (hi - lo) r := by omega
  refine ⟨?_, ?_, by omega, by omega⟩
  · rintro rfl
    simpa using hv
  · rw [hstep]
    exact segmentStep_nearest (hi - lo) r

end Sys2Proof.Machine
end

section
/-! SUPPORT. A demand event of the Heat Drive, said by its rules, and the statement O34. -/

namespace Sys2Proof.Machine

/-! ### A channel's demand (R120 to R122) -/

/-- The four cases of R121 in which the integrator is held: a Blocked mark, the CutOff marks, and a raw demand at a
limit with an error that would drive it further. -/
theorem integratorAfter_eq (blocked cutoff : Bool) (ki raw e i : Int) :
    integratorAfter (blocked || cutoff) ki raw e i =
      if blocked = true ∨ cutoff = true ∨ (6400 ≤ raw ∧ 0 < e) ∨ (raw ≤ 0 ∧ e < 0) then i
      else clampInt 0 6400 (i + ki * e) := by
  simp only [integratorAfter, Bool.or_eq_true, Bool.and_eq_true, decide_eq_true_eq, or_assoc]

/-- A channel without a working value demands everything and keeps its integrator (R122). -/
theorem heaterDemand_of_absent (s : State) (c : Heater) (h : heaterValue s c = none) :
    heaterDemand s c = (100, (s.heat.channel c).integrator) := by
  simp only [heaterDemand, h]

/-- A channel with a working value demands by its error, and its integrator is held or follows the error (R120,
R121). -/
theorem heaterDemand_of_present (s : State) (c : Heater) (f : Int) (h : heaterValue s c = some f) :
    heaterDemand s c =
      (let i := (s.heat.channel c).integrator
       let e := demandError (heaterSetpoint (settings s) c) f
       let raw := heaterKp (settings s) c * e + i
       (demandOf raw,
        if (s.heat.channel c).blocked = true ∨ s.heat.cutoffMarks = true ∨ (6400 ≤ raw ∧ 0 < e) ∨ (raw ≤ 0 ∧ e < 0)
        then i else clampInt 0 6400 (i + heaterKi (settings s) c * e))) := by
  simp only [heaterDemand, h, integratorAfter_eq]

/-! ### The demand event (R119, R123) -/

theorem exec_demandEvent (s : State) : exec .demandEvent s = execDemandEvent s := rfl

theorem demandDue_iff (s : State) :
    demandDue s = true ↔ 900 ≤ elapsed s.heat.periodStart s.clock.ms ∧ s.heat.demandTaken = false := by
  simp [demandDue]

theorem execDemandEvent_of_due (s : State) (h : demandDue s = true) : execDemandEvent s = .next (takeDemand s) := by
  rw [execDemandEvent, if_pos h]

/-- Settles O34: the demand by whether the channel has a working value, and the event by its work when it is due. -/
theorem demandRule : Obligations.DemandRule := by
  refine ⟨fun s c => ?_, fun s hstep htaken => ?_⟩
  · cases hvalue : heaterValue s c with
    | none => exact heaterDemand_of_absent s c hvalue
    | some f => exact heaterDemand_of_present s c f hvalue
  · have due : demandDue s = true := (demandDue_iff s).mpr ⟨hstep, htaken⟩
    rw [exec_demandEvent, execDemandEvent_of_due s due]
    rfl

end Sys2Proof.Machine
end

section
/-! SUPPORT. The induction over the commands packaged once (`Kept.every_command`), what changes of liveness keep, and
the statements O57 (exchange tags) and O58 (keys follow the host). -/

namespace Sys2Proof.Machine

/-! ### One induction over the commands -/

/-- A property that every part keeps is kept by every command, where the end of a field frame, the in-band reset and
the start after the two other resets keep it too. -/
theorem Kept.every_command {P : State → Prop} (K : Kept P)
    (field : ∀ (s : State) (x : FieldTransmission), s.fieldPort.sending = some x → P s → P (finishField x.item s))
    (inBand : ∀ s : State, P s → P (inBandReset s))
    (start : ∀ (log : RestartLog) (s : State), log = {} ∨ log = logAfterLineReset s → P s → P (initialState log s))
    (c : Instr) (s t : State) (hP : P s) (ht : exec c s = .next t) : P t := by
  have started : ∀ log, log = {} ∨ log = logAfterLineReset s → P (autoStart (initialState log s)) := by
    intro log hlog
    unfold autoStart
    split
    · exact enterColdHold_kept K _ _ (start log s hlog hP)
    · exact start log s hlog hP
  rcases command_kinds c with hc | hc | rfl | rfl
  · exact management_kept K c s t hP ht hc fun _ _ => inBand
  · exact event_kept K c s t hP ht hc (fun _ x hx => field s x hx hP) fun _ _ _ _ => inBand
  · cases ht
    exact started {} (.inl rfl)
  · cases ht
    exact started _ (.inr rfl)

/-! ### Changes of liveness by their parts -/

/-- A change of liveness keeps what its parts keep: the Liveness Controller's own fields, the blocking of heaters, the
expiry of exchanges, the flush of the keys and what is counted (R76, R96). -/
theorem enterState_of_parts {P : State → Prop}
    (live : ∀ (u : State) (l : LivenessController), l.budget = u.live.budget → P u → P { u with live := l })
    (block : ∀ u : State, P u → P (blockNotAllowed u))
    (expire : ∀ (i : ExchangeId) (h : Bool) (t : Instant) (u : State), P u → P (expireExchange i h t u))
    (flush : ∀ u : State, P u → P (flushKeyQueue u))
    (count : ∀ (id : CounterId) (n : Nat) (u : State), P u → P (bumpBy id n u))
    (st : Liveness) (tm : Option Timer) (t : Instant) (u : State) (h : P u) : P (enterState st tm t u) := by
  have left : ∀ (t : Instant) (v : State), P v → P (leaveHostUp t v) := fun t v hv =>
    flush _ (count _ _ _ (foldl_kept _ (fun w i => expire i true t w) _ _ hv))
  have moved := live u { u.live with state := st, enteredAt := t.sec, timer := tm } rfl h
  have powered : ∀ (up : Bool) (v : State), P v → P (if up = true then hostPowerOn v else v) := by
    intro up v hv
    split
    · exact block _ (live v _ rfl hv)
    · exact hv
  unfold enterState
  dsimp only
  split
  · exact left _ _ (powered _ _ moved)
  · exact powered _ _ moved

/-- An accepted heartbeat by the state that hears it (R82, R84). -/
theorem acceptHeartbeat_cases (t : Instant) (u : State) (h : u.live.state.hears = true) :
    (u.live.state = .running ∧ acceptHeartbeat t u = restartWindow t u) ∨
    (u.live.state = .booting ∧ acceptHeartbeat t u = emptyKeyList { u with live := runningFrom t u }) ∨
    (u.live.state = .warned ∧ acceptHeartbeat t u = { u with live := runningFrom t u }) := by
  have heard := (hears_iff _).mp h
  simp only [List.mem_cons, List.not_mem_nil, or_false] at heard
  rcases heard with hs | hs | hs
  · refine .inr (.inl ⟨hs, ?_⟩)
    rw [acceptHeartbeat_enters_running t u (by rw [hs]; nofun), enterRunning_of_powered t u (by rw [hs]; rfl),
      if_pos hs]
  · exact .inl ⟨hs, acceptHeartbeat_in_running t u hs⟩
  · refine .inr (.inr ⟨hs, ?_⟩)
    rw [acceptHeartbeat_enters_running t u (by rw [hs]; nofun), enterRunning_of_powered t u (by rw [hs]; rfl),
      if_neg (by rw [hs]; nofun)]

/-- WARNED entered from RUNNING changes only the Liveness Controller (R83). -/
theorem enterState_warned (tm : Option Timer) (t : Instant) (u : State) (h : u.live.state = .running) :
    enterState .warned tm t u = { u with live := { u.live with state := .warned, enteredAt := t.sec, timer := tm } } :=
  enterState_plain .warned tm t u (.inl (by rw [h]; rfl)) (.inr rfl)

/-! ### The tags of the Exchange Table (R50) -/

/-- The tags' property reads nothing but the Exchange Table. -/
theorem ExchangeTagsDistinct.of_exchanges {s t : State} (h : ExchangeTagsDistinct s) (e : t.exchanges = s.exchanges) :
    ExchangeTagsDistinct t := by
  unfold ExchangeTagsDistinct
  rw [e]
  exact h

/-- An entry may take any contents whose tag no further entry holds. -/
theorem ExchangeTagsDistinct.set {s : State} (h : ExchangeTagsDistinct s) (e : ExchangeId) (x : Exchange)
    (hx : x.tag? = none ∨ ∀ j : ExchangeId, j ≠ e → s.exchanges[j].tag? ≠ x.tag?) :
    ExchangeTagsDistinct (setExchange e x s) := by
  intro i j hij
  have get : ∀ k : ExchangeId, (setExchange e x s).exchanges[k] = if k = e then x else s.exchanges[k] := by
    intro k
    simp [Vector.getElem_set, Fin.ext_iff, eq_comm]
  rw [get i, get j]
  by_cases hi : i = e
  · have hj : j ≠ e := fun hj => hij (hi.trans hj.symm)
    rw [if_pos hi, if_neg hj]
    exact hx.imp_right fun free => (free j hj).symm
  · rw [if_neg hi]
    by_cases hj : j = e
    · rw [if_pos hj]
      rcases hx with none | free
      · rw [none]
        exact (em _)
      · exact .inr (free i hi)
    · rw [if_neg hj]
      exact h i j hij

/-- An entry that keeps its tag. -/
theorem ExchangeTagsDistinct.set_same {s : State} (h : ExchangeTagsDistinct s) (e : ExchangeId) (x : Exchange)
    (hx : x.tag? = s.exchanges[e].tag?) : ExchangeTagsDistinct (setExchange e x s) := by
  refine h.set e x ?_
  by_cases hnone : x.tag? = none
  · exact .inl hnone
  · refine .inr fun j hj => ?_
    rcases h e j hj.symm with h0 | hne
    · exact absurd (hx.trans h0) hnone
    · rw [hx]
      exact hne.symm

/-- A tag that neither a Waiting nor a Late entry holds is held by none. -/
theorem tag?_ne_of_not_held {s : State} {tag : Byte} (hw : waitingWith tag s = none) (hl : lateWith tag s = none)
    (j : ExchangeId) : s.exchanges[j].tag? ≠ some tag := by
  intro held
  have noWait := List.find?_eq_none.mp hw j (List.mem_finRange j)
  have noLate := List.find?_eq_none.mp hl j (List.mem_finRange j)
  rw [held] at noWait noLate
  cases hx : s.exchanges[j] <;> rw [hx] at held noWait noLate <;>
    simp_all [Exchange.isWaiting, Exchange.isLate, Exchange.tag?]

/-- The entry that a Forward uses may take the request's tag: it is the Late entry with the tag, or none holds it
(R40, R51). -/
theorem ExchangeTagsDistinct.open {s : State} (h : ExchangeTagsDistinct s) {tag : Byte} {e : ExchangeId}
    (hw : waitingWith tag s = none) (he : exchangeFor tag s = some e) (x : Exchange) (hx : x.tag? = some tag) :
    ExchangeTagsDistinct (setExchange e x s) := by
  cases hl : lateWith tag s with
  | some i =>
    have hi : i = e := by simpa [exchangeFor, hl] using he
    have found := List.find?_some hl
    simp only [Bool.and_eq_true, beq_iff_eq, hi] at found
    exact h.set_same e x (hx.trans found.2.symm)
  | none =>
    refine h.set e x (.inr fun j _ => ?_)
    rw [hx]
    exact tag?_ne_of_not_held hw hl j

theorem openExchange_exchanges (e : ExchangeId) (tag topic : Byte) (t : Instant) (s : State) :
    (openExchange e tag topic t s).exchanges = s.exchanges.set e (.waiting ⟨tag, topic, t.ms,
      t.ms + BitVec.ofNat 32 (settings s).hostAnswerLimit.toNat, 0⟩) := by
  unfold openExchange
  dsimp only
  split <;> rfl

theorem ExchangeTagsDistinct.expire {s : State} (h : ExchangeTagsDistinct s) (i : ExchangeId) (b : Bool) (t : Instant) :
    ExchangeTagsDistinct (expireExchange i b t s) := by
  unfold expireExchange
  split
  · rename_i r hr
    refine (h.set_same i (.late r (startTimer t (settings s).lateHold.toNat)) ?_).of_exchanges (by simp)
    rw [hr]
    rfl
  · exact h

theorem ExchangeTagsDistinct.absorb {s : State} (h : ExchangeTagsDistinct s) (i : ExchangeId) :
    ExchangeTagsDistinct (absorbRetry i s) := by
  unfold absorbRetry
  split
  · rename_i r hr
    refine (h.set_same i _ ?_).of_exchanges rfl
    rw [hr]
    rfl
  · exact h

theorem ExchangeTagsDistinct.enter (st : Liveness) (tm : Option Timer) (t : Instant) (s : State)
    (h : ExchangeTagsDistinct s) : ExchangeTagsDistinct (enterState st tm t s) :=
  enterState_of_parts (fun _ _ _ h => h) (fun _ h => h.of_exchanges (by simp)) (fun i b t _ h => h.expire i b t)
    (fun _ h => h) (fun _ _ _ h => h) st tm t s h

theorem swapTable_exchanges (table : Nat) (s : State) : (swapTable table s).exchanges = s.exchanges := by
  unfold swapTable commitSettings
  split <;> simp [commitRoute, commitKeyMap, commitChord, commitCurveA, commitCurveB, commitProxy]

/-- Every part of a command keeps the tags distinct. -/
theorem exchangeTagsDistinct_kept : Kept ExchangeTagsDistinct where
  other _ _ _ _ _ _ _ _ _ h := h
  unit _ _ _ h := h
  hostJoins _ _ _ h := h
  fieldJoins _ _ _ h := h
  rx p _ _ h := h.of_exchanges (by simp)
  keysTaken _ _ h := h
  flushed _ h := h
  composed _ _ _ _ _ _ h := h.of_exchanges (by simp)
  keyCopy _ _ _ _ _ h := h.of_exchanges (by simp [copyKeyList])
  captured _ _ _ _ h := h.of_exchanges (by simp)
  opened s e tag topic t hw he h := (h.open hw he _ rfl).of_exchanges (openExchange_exchanges e tag topic t s)
  absorbed i _ h := h.absorb i
  freed i s h := h.set i .free (.inl rfl)
  expired i b t _ h := h.expire i b t
  hits _ _ h := h
  livef _ _ _ _ _ _ _ _ h := h
  accepted t s hs h := by
    rcases acceptHeartbeat_cases t s hs with ⟨-, e⟩ | ⟨-, e⟩ | ⟨-, e⟩ <;> rw [e]
    all_goals exact h.of_exchanges rfl
  logged _ _ h := h
  entered st tm t s _ h := h.enter st tm t s
  warned tm t s _ h := h.enter .warned tm t s
  aged _ _ h := h
  charged _ _ _ h := h
  budget0 _ h := h
  emptyLog _ h := h
  heat _ _ _ _ h := h
  demand _ h := h
  filled _ _ _ _ _ h := h
  tabs _ _ _ h := h
  swapped table s h := h.of_exchanges (swapTable_exchanges table s)
  storing _ _ h := h
  stored _ _ _ h := h
  learned _ _ h := h
  offered _ _ _ h := h.of_exchanges (by simp)
  listed _ _ _ _ h := h.of_exchanges (by simp)
  sendHost _ _ _ _ _ h := h
  sendField _ _ _ _ _ h := h
  endHost _ h := h

/-- With every entry Free no tag is held. -/
theorem ExchangeTagsDistinct.of_allFree {s : State} (h : s.exchanges = Vector.replicate 8 .free) :
    ExchangeTagsDistinct s := by
  intro i j _
  rw [h]
  exact .inl (by simp [Exchange.tag?])

theorem finishField_exchanges (i : FieldItem) (s : State) : (finishField i s).exchanges = s.exchanges := by
  simp [finishField]

theorem inBandReset_exchanges (s : State) : (inBandReset s).exchanges = Vector.replicate 8 .free := by
  simp [inBandReset]

/-- Settles O57: an entry takes a tag only as the Late entry that holds it or where none holds it. -/
theorem exchangeTagsDistinctKept : Obligations.ExchangeTagsDistinctKept := fun c s t hs ht =>
  exchangeTagsDistinct_kept.every_command (fun s x _ h => h.of_exchanges (finishField_exchanges x.item s))
    (fun s _ => .of_allFree (inBandReset_exchanges s)) (fun _ _ _ _ => .of_allFree rfl) c s t hs ht

/-! ### Keys and the host (R73, R96, R168) -/

/-- The keys' property reads whether the host is up, the Key Event Queue with its loss mark, and whether the Field Key
List is empty. -/
theorem KeysFollowHost.of_same {s t : State} (h : KeysFollowHost s) (hl : t.live.state = s.live.state)
    (hu : t.keyUnit.queue = s.keyUnit.queue ∧ t.keyUnit.lossPending = s.keyUnit.lossPending)
    (hk : s.keyList.events = [] → t.keyList.events = []) : KeysFollowHost t := by
  unfold KeysFollowHost hostUp
  rw [hl, hu.1, hu.2]
  exact ⟨h.1, fun up => hk (h.2 up)⟩

/-- With the host down it is the Key Event Queue that has to be empty, and nothing is asked of the list. -/
theorem KeysFollowHost.of_host_down {s : State} (hd : hostUp s = false)
    (hu : s.keyUnit.queue = [] ∧ s.keyUnit.lossPending = false) : KeysFollowHost s :=
  ⟨fun _ => hu, fun up => absurd (hd.symm.trans up) (by decide)⟩

/-- With the host up it is the Field Key List that has to be empty, and nothing is asked of the queue. -/
theorem KeysFollowHost.of_host_up {s : State} (hu : hostUp s = true) (hk : s.keyList.events = []) : KeysFollowHost s :=
  ⟨fun down => absurd (hu.symm.trans down) (by decide), fun _ => hk⟩

/-- Liveness enters a state that is not HostUp: the keys are flushed, or were empty (R168). -/
theorem KeysFollowHost.enter {s : State} (h : KeysFollowHost s) (st : Liveness) (tm : Option Timer) (t : Instant)
    (hst : st.isHostUp = false) : KeysFollowHost (enterState st tm t s) := by
  have down : hostUp (enterState st tm t s) = false :=
    (congrArg Liveness.isHostUp (enterState_state st tm t s)).trans hst
  have same : SameHandOver s s := ⟨rfl, rfl, rfl, rfl, rfl, rfl, rfl, rfl, rfl, rfl, rfl, rfl, rfl, rfl⟩
  have handed := enterState_hostUpHandOver st tm t same rfl
  refine .of_host_down down ?_
  unfold HostUpHandOver at handed
  split at handed
  · obtain ⟨-, -, keys, -⟩ := handed
    rw [keys]
    exact ⟨rfl, rfl⟩
  · rename_i stays
    have wasDown : hostUp s = false := by
      cases hs : hostUp s
      · rfl
      · exact absurd ⟨hs, down⟩ stays
    rw [handed.2.1]
    exact h.1 wasDown

theorem swapTable_keys (table : Nat) (s : State) :
    (swapTable table s).live.state = s.live.state ∧ (swapTable table s).keyUnit.queue = s.keyUnit.queue ∧
    (swapTable table s).keyUnit.lossPending = s.keyUnit.lossPending ∧
    (swapTable table s).keyList.events = s.keyList.events := by
  unfold swapTable commitSettings
  split <;> simp [commitRoute, commitKeyMap, commitChord, commitCurveA, commitCurveB, commitProxy, trimBudget]

theorem expireExchange_keyList (i : ExchangeId) (b : Bool) (t : Instant) (s : State) :
    (expireExchange i b t s).keyList = s.keyList := by
  unfold expireExchange
  split
  · simp [composeReply_keyList]
  · rfl

/-- Every part of a command keeps the keys with the host. -/
theorem keysFollowHost_kept : Kept KeysFollowHost where
  other _ _ _ _ _ _ _ _ _ h := h
  unit _ _ _ h := h
  hostJoins _ _ _ h := h
  fieldJoins _ _ _ h := h
  rx p _ _ h := h.of_same (by simp) (by simp) (by simp)
  keysTaken _ up h := .of_host_up up (h.2 up)
  flushed _ h := ⟨fun _ => ⟨rfl, rfl⟩, h.2⟩
  composed _ _ _ _ _ _ h := h.of_same (by simp) (by simp) (by simp [composeReply_keyList])
  keyCopy _ _ _ _ down h :=
    .of_host_down (by simpa [hostUp, copyKeyList] using down) (by simpa [copyKeyList] using h.1 down)
  captured _ _ _ _ h := h.of_same (by simp) (by simp) (by simp)
  opened s e tag topic t hw he h := h.of_same (by simp) (by simp) (by simp)
  absorbed i _ h := h.of_same (by simp) (by simp) (by simp)
  freed _ _ h := h
  expired _ _ _ _ h := h.of_same (by simp) (by simp) (by simp [expireExchange_keyList])
  hits _ _ h := h
  livef _ _ _ _ _ _ _ _ h := h
  accepted t s hs h := by
    rcases acceptHeartbeat_cases t s hs with ⟨-, e⟩ | ⟨-, e⟩ | ⟨warned, e⟩ <;> rw [e]
    · exact h.of_same rfl ⟨rfl, rfl⟩ id
    · exact .of_host_up rfl rfl
    · exact .of_host_up rfl (h.2 (congrArg Liveness.isHostUp warned))
  logged _ _ h := h
  entered st tm t s hst h := h.enter st tm t hst
  warned tm t s running h := by
    rw [enterState_warned tm t s running]
    exact .of_host_up rfl (h.2 (congrArg Liveness.isHostUp running))
  aged _ _ h := h
  charged _ _ _ h := h
  budget0 _ h := h
  emptyLog _ h := h
  heat _ _ _ _ h := h
  demand _ h := h
  filled _ _ _ _ _ h := h
  tabs _ _ _ h := h
  swapped table s h :=
    have ⟨live, queue, loss, events⟩ := swapTable_keys table s
    h.of_same live ⟨queue, loss⟩ events.trans
  storing _ _ h := h
  stored _ _ _ h := h
  learned _ _ h := h
  offered _ s up h := .of_host_up (by simpa [hostUp] using up) (by simpa using h.2 up)
  listed _ _ s down h := .of_host_down (by simpa [hostUp] using down) (by simpa using h.1 down)
  sendHost _ _ _ _ _ h := h
  sendField _ _ _ _ _ h := h
  endHost _ h := h

/-- A list of key events that is empty stays so where copies are returned to it (R72). -/
theorem undoDescriptor_events (d : Descriptor) (s : State) (h : s.keyList.events = []) :
    (undoDescriptor d s).keyList.events = [] := by
  unfold undoDescriptor
  split <;> simp [undoKeyList, h]

/-- The end of a field frame takes events from the Field Key List and adds none (R71). -/
theorem KeysFollowHost.after_finishField {s : State} (h : KeysFollowHost s) (i : FieldItem) :
    KeysFollowHost (finishField i s) := by
  unfold finishField finishItem finishDescriptor
  dsimp only
  split
  · exact releaseBuffer_kept keysFollowHost_kept _ _ h
  · split
    · exact h
    · exact h
    · exact h.of_same rfl ⟨rfl, rfl⟩ fun none => by simp [keyListDelivered, none]

/-- The in-band reset returns events to pending and adds none, and leaves no key event (R72, R176). -/
theorem KeysFollowHost.after_inBandReset {s : State} (h : KeysFollowHost s) : KeysFollowHost (inBandReset s) := by
  have events : s.keyList.events = [] → (inBandReset s).keyList.events = [] := by
    intro none
    have returned : ((fieldItems s).foldl discardItem s).keyList.events = [] := by
      refine foldl_kept (P := fun u => u.keyList.events = []) _ (fun u i hu => ?_) _ _ none
      unfold discardItem
      split
      · exact hu
      · exact undoDescriptor_events _ u hu
    simpa [inBandReset, resetKeys, resetPorts] using returned
  have live : (inBandReset s).live = s.live := by simp [inBandReset]
  refine ⟨fun _ => ?_, fun up => events (h.2 ?_)⟩
  · simp [inBandReset, resetKeys]
  · rwa [hostUp, live] at up

/-- Settles O58: a record joins the queue only while the host is up and an event the list only while it is not, and a
change of HostUp empties the one that may no longer hold any. -/
theorem keysFollowHostKept : Obligations.KeysFollowHostKept := fun c s t hs ht =>
  keysFollowHost_kept.every_command (fun _ x _ h => h.after_finishField x.item) (fun _ h => h.after_inBandReset)
    (fun _ _ _ _ => .of_host_down rfl ⟨rfl, rfl⟩) c s t hs ht

end Sys2Proof.Machine
end

section
/-! SUPPORT. The ranges of the settings and the capacities of the queues, lists, pins and integrators: what every part
of a command keeps of them (the first half of O59). -/

namespace Sys2Proof.Machine

/-! ### Settings in their ranges (R184, R186, R188) -/

theorem settingRow_lo_le_hi (i : Fin 61) : (settingRow i).lo ≤ (settingRow i).hi := by
  revert i
  decide

theorem factorySettings_inRange : SettingsInRange factorySettings := by
  have defaults : ∀ i : Fin 61, (settingRow i).lo ≤ (settingRow i).dflt ∧
      (settingRow i).dflt ≤ (settingRow i).hi := by decide
  intro i
  simpa [factorySettings] using defaults i

/-- A setting may take any value in its own range. -/
theorem SettingsInRange.set {t : SettingsTable} (h : SettingsInRange t) (i : Fin 61) (x : Int)
    (hx : (settingRow i).lo ≤ x ∧ x ≤ (settingRow i).hi) : SettingsInRange (t.set i x) := by
  intro j
  by_cases hj : (i : Nat) = j
  · have : i = j := Fin.ext hj
    subst this
    simpa using hx
  · simpa [Vector.getElem_set_ne _ _ hj] using h j

theorem clampSetting_inRange (i : Fin 61) (x : Int) :
    (settingRow i).lo ≤ clampSetting i x ∧ clampSetting i x ≤ (settingRow i).hi := by
  have order := settingRow_lo_le_hi i
  unfold clampSetting clampInt
  omega

/-- A learned airflow writes values in range (R138). -/
theorem SettingsInRange.learned {t : SettingsTable} (h : SettingsInRange t) (d : Int) :
    SettingsInRange (learnedInto (clampInt (-1000) 1000 d) t) := by
  have clamped : (settingRow 47).lo ≤ clampInt (-1000) 1000 d ∧ clampInt (-1000) 1000 d ≤ (settingRow 47).hi := by
    show -1000 ≤ max (-1000) (min 1000 d) ∧ max (-1000) (min 1000 d) ≤ 1000
    omega
  exact (h.set 47 _ clamped).set 48 1 (by decide)

theorem SettingsInRange.maxRestarts {t : SettingsTable} (h : SettingsInRange t) : t.maxRestarts ≤ 8 := (h 18).2

/-- The Settings table of a load: a stored image in range, or the factory defaults (R188). -/
theorem loadTables_settings_inRange {st : Store} (h : StoredSettingsInRange st) :
    SettingsInRange (loadTables st).settings.live ∧ SettingsInRange (loadTables st).settings.staging := by
  have loaded : SettingsInRange ((passing settingsImage st.settings).getD factorySettings) := by
    have image := h.1
    unfold passing
    split
    · rename_i i hi
      rw [hi] at image
      split
      · exact image
      · exact factorySettings_inRange
    · exact factorySettings_inRange
  exact ⟨loaded, loaded⟩

/-- What a store holds of the Settings table is all that its ranges read. -/
theorem StoredSettingsInRange.of_same {st st' : Store} (h : StoredSettingsInRange st)
    (hi : st'.settings = st.settings ∨ st'.settings = none) (hw : st'.writing = st.writing ∨ st'.writing = none) :
    StoredSettingsInRange st' := by
  obtain ⟨image, job⟩ := h
  refine ⟨?_, ?_⟩
  · rcases hi with e | e <;> rw [e]
    exacts [image, trivial]
  · rcases hw with e | e <;> rw [e]
    exacts [job, trivial]

theorem StoredSettingsInRange.cutWrite {st : Store} (h : StoredSettingsInRange st) :
    StoredSettingsInRange (cutWrite st) := by
  unfold Machine.cutWrite
  dsimp only
  split <;> exact h.of_same (by simp) (by simp)

/-- A completed write puts the image that was being written into the store (R187). -/
theorem StoredSettingsInRange.finishWrite {st : Store} (h : StoredSettingsInRange st) (j : StoreJob)
    (hj : st.writing = some j) : StoredSettingsInRange (finishWrite j st) := by
  obtain ⟨image, job⟩ := h
  rw [hj] at job
  unfold Machine.finishWrite
  dsimp only
  split
  case h_6 => exact ⟨job, trivial⟩
  all_goals exact ⟨image, trivial⟩

theorem AllSettingsInRange.of_same {s t : State} (h : AllSettingsInRange s) (ht : t.tables.settings = s.tables.settings)
    (hs : t.store = s.store) : AllSettingsInRange t := by
  unfold AllSettingsInRange
  rw [ht, hs]
  exact h

theorem swapTable_store (table : Nat) (s : State) : (swapTable table s).store = s.store := by
  unfold swapTable commitSettings
  split <;> simp [commitRoute, commitKeyMap, commitChord, commitCurveA, commitCurveB, commitProxy]

/-- A swap leaves the Settings table or sets live equal to staging (R185). -/
theorem swapTable_settings (table : Nat) (s : State) :
    (swapTable table s).tables.settings = s.tables.settings ∨
    (swapTable table s).tables.settings = .both s.tables.settings.staging := by
  unfold swapTable commitSettings
  split <;> simp [commitRoute, commitKeyMap, commitChord, commitCurveA, commitCurveB, commitProxy, Staged.committed]

/-- The Settings table after WRITE ENTRY: as it was, or with a clamped value in its staging copy (R184). -/
theorem writeStaging_settings {table index : Nat} {bs : List Byte} {tb t : Tables} {clamped : Bool}
    (h : writeStaging table index bs tb = some (t, clamped)) :
    t.settings = tb.settings ∨
    ∃ (i : Fin 61) (x : Int),
      t.settings = { tb.settings with staging := tb.settings.staging.set i (clampSetting i x) } := by
  unfold writeStaging at h
  split at h
  case h_8 => cases h
  all_goals split at h
  case h_6.isTrue hi =>
    cases h
    exact .inr ⟨⟨index, hi⟩, readInt32 bs, rfl⟩
  case h_1.isTrue | h_3.isTrue =>
    obtain ⟨e, -, he⟩ := Option.map_eq_some_iff.mp h
    cases he
    exact .inl rfl
  all_goals cases h
  all_goals exact .inl rfl

theorem discardStaging_settings {table : Nat} {tb t : Tables} (h : discardStaging table tb = some t) :
    t.settings = tb.settings ∨ t.settings = .both tb.settings.live := by
  unfold discardStaging at h
  split at h <;> simp only [Option.some.injEq, reduceCtorEq] at h <;> subst h <;> simp [Staged.discarded]

theorem captureImage_settings {table : Nat} {tb : Tables} {t : SettingsTable}
    (h : captureImage table tb = some (.settings t)) : t = tb.settings.live := by
  unfold captureImage at h
  split at h <;> cases h
  rfl

/-- Every part of a command keeps every copy of the settings in range. -/
theorem allSettingsInRange_kept : Kept AllSettingsInRange where
  other _ _ _ _ _ _ _ _ _ h := h
  unit _ _ _ h := h
  hostJoins _ _ _ h := h
  fieldJoins _ _ _ h := h
  rx _ _ _ h := h.of_same (by simp) (by simp)
  keysTaken _ _ h := h
  flushed _ h := h
  composed _ _ _ _ _ _ h := h.of_same (by simp) (by simp)
  keyCopy _ _ _ _ _ h := h.of_same (by simp [copyKeyList]) (by simp [copyKeyList])
  captured _ _ _ _ h := h.of_same (by simp) (by simp)
  opened _ _ _ _ _ _ _ h := h.of_same (by simp) (by simp)
  absorbed _ _ h := h.of_same (by simp) (by simp)
  freed _ _ h := h
  expired _ _ _ _ h := h.of_same (by simp) (by simp)
  hits _ _ h := h
  livef _ _ _ _ _ _ _ _ h := h
  accepted _ _ _ h := h.of_same (by simp) (by simp)
  logged _ _ h := h
  entered _ _ _ _ _ h := h.of_same (by simp) (by simp)
  warned _ _ _ _ h := h.of_same (by simp) (by simp)
  aged _ _ h := h
  charged _ _ _ h := h
  budget0 _ h := h
  emptyLog _ h := h
  heat _ _ _ _ h := h
  demand _ h := h
  filled _ _ _ _ _ h := h
  tabs s t ht h := by
    obtain ⟨live, staging, stored⟩ := h
    rcases ht with ⟨table, index, bytes, clamped, e⟩ | ⟨table, e⟩
    · rcases writeStaging_settings e with e | ⟨i, x, e⟩ <;> unfold AllSettingsInRange <;> rw [e]
      exacts [⟨live, staging, stored⟩, ⟨live, staging.set i _ (clampSetting_inRange i x), stored⟩]
    · rcases discardStaging_settings e with e | e <;> unfold AllSettingsInRange <;> rw [e]
      exacts [⟨live, staging, stored⟩, ⟨live, live, stored⟩]
  swapped table s h := by
    obtain ⟨live, staging, stored⟩ := h
    unfold AllSettingsInRange
    rw [swapTable_store]
    rcases swapTable_settings table s with e | e <;> rw [e]
    exacts [⟨live, staging, stored⟩, ⟨staging, staging, stored⟩]
  storing table s h := by
    obtain ⟨live, staging, image, -⟩ := h
    refine ⟨live, staging, image, ?_⟩
    split
    · rename_i t captured
      rw [captureImage_settings captured]
      exact live
    · trivial
  stored s j hj h := ⟨h.1, h.2.1, h.2.2.finishWrite j hj⟩
  learned s d h := ⟨h.1.learned d, h.2.1.learned d, h.2.2⟩
  offered _ _ _ h := h.of_same (by simp) (by simp)
  listed _ _ _ _ h := h.of_same (by simp) (by simp)
  sendHost _ _ _ _ _ h := h
  sendField _ _ _ _ _ h := h
  endHost _ h := h

/-- After any of the three resets the tables are a load of the store that the reset leaves (R188). -/
theorem AllSettingsInRange.of_load {s : State} (h : StoredSettingsInRange s.store)
    (ht : s.tables = loadTables s.store) : AllSettingsInRange s := by
  obtain ⟨live, staging⟩ := loadTables_settings_inRange h
  unfold AllSettingsInRange
  rw [ht]
  exact ⟨live, staging, h⟩

theorem AllSettingsInRange.after_finishField {s : State} (h : AllSettingsInRange s) (i : FieldItem) :
    AllSettingsInRange (finishField i s) :=
  h.of_same (by simp [finishField]) (by simp [finishField])

theorem inBandReset_store (s : State) : (inBandReset s).store = s.store := by
  simp [inBandReset]

theorem inBandReset_tables (s : State) : (inBandReset s).tables = loadTables s.store := by
  simp [inBandReset]

theorem AllSettingsInRange.after_inBandReset {s : State} (h : AllSettingsInRange s) :
    AllSettingsInRange (inBandReset s) :=
  .of_load (by rw [inBandReset_store]; exact h.2.2) (by rw [inBandReset_store, inBandReset_tables])

theorem AllSettingsInRange.after_reset {s : State} (h : AllSettingsInRange s) (log : RestartLog) :
    AllSettingsInRange (initialState log s) :=
  .of_load h.2.2.cutWrite rfl

/-! ### Capacities (R18, R19, R61, R69, R86, R94, R121, R166) -/

theorem PinsBounded.set {r : ProxyRuntime} (h : PinsBounded r) (i : HalfId) (x : ProxyHalf) (hx : x.pins ≤ 16) :
    PinsBounded (r.set i x) := by
  cases i
  exacts [⟨hx, h.2⟩, ⟨h.1, hx⟩]

theorem PinsBounded.get {r : ProxyRuntime} (h : PinsBounded r) (i : HalfId) : (r.get i).pins ≤ 16 := by
  cases i
  exacts [h.1, h.2]

/-- The pin counts of the whole Proxy Table stay within R61's range. -/
def PinsFit (p : Vector ProxyRuntime 16) : Prop := ∀ e : ProxyId, PinsBounded p[e]

/-- The places that composed replies and their undoing use: the Field Transmit Queue, the Field Key List and the
pins. -/
structure RepliesFit (s : State) : Prop where
  field : s.fieldPort.queue.length ≤ 16
  list : s.keyList.events.length ≤ 8
  pins : PinsFit s.proxy

theorem RepliesFit.setProxy {s : State} (h : RepliesFit s) (e : ProxyId) (r : ProxyRuntime) (hr : PinsBounded r) :
    RepliesFit (setProxy e r s) := by
  obtain ⟨field, list, pins⟩ := h
  refine ⟨field, list, fun j => ?_⟩
  by_cases hj : (e : Nat) = j
  · have : e = j := Fin.ext hj
    subst this
    simpa using hr
  · simpa [Vector.getElem_set_ne _ _ hj] using pins j

theorem RepliesFit.pinHalf {s : State} (h : RepliesFit s) (e : ProxyId) (i : HalfId)
    (room : (s.proxy[e].get i).pins < 16) : RepliesFit (pinHalf e i s) :=
  h.setProxy e _ ((h.pins e).set i _ room)

theorem RepliesFit.unpinHalf {s : State} (h : RepliesFit s) (e : ProxyId) (i : HalfId) :
    RepliesFit (unpinHalf e i s) :=
  h.setProxy e _ ((h.pins e).set i _ (Nat.le_trans (Nat.sub_le _ _) ((h.pins e).get i)))

theorem RepliesFit.fillInactive {s : State} (h : RepliesFit s) (e : ProxyId) (payload : List Byte) (t : Instant) :
    RepliesFit (fillInactive e payload t s) :=
  h.setProxy e _ ((h.pins e).set _ ⟨true, payload, t.sec, 0⟩ (Nat.zero_le 16))

theorem RepliesFit.undoDescriptor {s : State} (h : RepliesFit s) (d : Descriptor) :
    RepliesFit (undoDescriptor d s) := by
  unfold Machine.undoDescriptor
  split
  · exact h
  · exact h.unpinHalf _ _
  · exact ⟨h.field, by simpa [undoKeyList] using h.list, h.pins⟩

theorem RepliesFit.offerReply {s : State} (h : RepliesFit s) (d : Descriptor) : RepliesFit (offerReply d s) := by
  unfold Machine.offerReply
  split
  · rename_i room
    have := (fieldQueueRoom_iff s).mp room
    exact ⟨by simpa using this, h.list, h.pins⟩
  · exact RepliesFit.undoDescriptor (s := bump _ s) ⟨h.field, h.list, h.pins⟩ d

theorem RepliesFit.bumpBy {s : State} (h : RepliesFit s) (id : CounterId) (n : Nat) : RepliesFit (bumpBy id n s) :=
  ⟨h.field, h.list, h.pins⟩

theorem RepliesFit.composeReply {s : State} (h : RepliesFit s) (p : ReplyPurpose) (topic tag : Byte) (b : Bool)
    (t : Instant) : RepliesFit (composeReply p topic tag b t s) := by
  have noHalf : RepliesFit (noHalfReply p topic tag b s) := by
    unfold noHalfReply offerBareReply
    split
    exacts [h.offerReply _, (h.bumpBy _ 1).offerReply _]
  unfold Machine.composeReply
  dsimp only
  split
  · rename_i e _
    split
    · split
      · rename_i room
        unfold proxyReply
        dsimp only
        split
        exacts [(((h.pinHalf e _ room).bumpBy _ 1).bumpBy _ 1).offerReply _,
          ((h.pinHalf e _ room).bumpBy _ 1).offerReply _]
      · exact (h.bumpBy _ 1).offerReply _
    · exact noHalf
  · exact noHalf

theorem RepliesFit.expireExchange {s : State} (h : RepliesFit s) (i : ExchangeId) (b : Bool) (t : Instant) :
    RepliesFit (expireExchange i b t s) := by
  unfold Machine.expireExchange
  split
  · rename_i r _
    have late : RepliesFit (setExchange i (.late r (startTimer t (settings s).lateHold.toNat)) s) :=
      ⟨h.field, h.list, h.pins⟩
    exact ((late.composeReply _ _ _ _ _).bumpBy _ 1).bumpBy _ _
  · exact h

theorem RepliesFit.capture {s : State} (h : RepliesFit s) (topic : Byte) (payload : List Byte) (t : Instant) :
    RepliesFit (capture topic payload t s) := by
  unfold Machine.capture
  split
  · exact h.bumpBy _ 1
  · split
    exacts [h.bumpBy _ 1, (h.fillInactive _ _ _).bumpBy _ 1]

/-- The capacities, with what composed replies use taken together. -/
theorem WithinCapacity.of_fit {s : State} (fit : RepliesFit s) (host : s.hostPort.queue.length ≤ 16)
    (keys : s.keyUnit.queue.length ≤ 16) (log : s.log.records.length ≤ 16) (budget : s.live.budget.length ≤ 8)
    (integrators : (0 ≤ s.heat.board.integrator ∧ s.heat.board.integrator ≤ 6400) ∧
      0 ≤ s.heat.glass.integrator ∧ s.heat.glass.integrator ≤ 6400) : WithinCapacity s :=
  ⟨host, fit.field, keys, fit.list, log, budget, fit.pins, integrators⟩

/-- The same capacities, where only what composed replies use has changed. -/
theorem WithinCapacity.of_replies {s t : State} (h : WithinCapacity s) (fit : RepliesFit t)
    (hh : t.hostPort.queue = s.hostPort.queue) (hk : t.keyUnit.queue = s.keyUnit.queue)
    (hl : t.log.records = s.log.records) (hb : t.live.budget = s.live.budget) (heat : t.heat = s.heat) :
    WithinCapacity t := by
  obtain ⟨host, -, keys, -, log, budget, -, integrators⟩ := h
  exact .of_fit fit (hh ▸ host) (hk ▸ keys) (hl ▸ log) (hb ▸ budget) (heat ▸ integrators)

theorem WithinCapacity.repliesFit {s : State} (h : WithinCapacity s) : RepliesFit s := by
  obtain ⟨-, field, -, list, -, -, pins, -⟩ := h
  exact ⟨field, list, pins⟩

/-- Blocking a heater leaves its integrator alone (R121, R124). -/
theorem blockNotAllowed_integrators (s : State) :
    (blockNotAllowed s).heat.board.integrator = s.heat.board.integrator ∧
    (blockNotAllowed s).heat.glass.integrator = s.heat.glass.integrator := by
  obtain ⟨heat, -⟩ := blockNotAllowed_spec s
  rw [heat]
  constructor <;> dsimp only <;> split <;> rfl

theorem WithinCapacity.block {s : State} (h : WithinCapacity s) : WithinCapacity (blockNotAllowed s) := by
  obtain ⟨board, glass⟩ := blockNotAllowed_integrators s
  unfold WithinCapacity
  rw [board, glass]
  simpa [WithinCapacity] using h

/-- Liveness enters a state: the queues and pins by the expiry replies, the Key Event Queue by its flush. -/
theorem WithinCapacity.enter {s : State} (h : WithinCapacity s) (st : Liveness) (tm : Option Timer) (t : Instant) :
    WithinCapacity (enterState st tm t s) := by
  refine enterState_of_parts (P := WithinCapacity) ?_ (fun _ h => h.block) ?_ ?_ (fun _ _ _ h => h) st tm t s h
  · rintro u l hl ⟨host, field, keys, list, log, budget, rest⟩
    exact ⟨host, field, keys, list, log, hl ▸ budget, rest⟩
  · exact fun i b t u h => h.of_replies (h.repliesFit.expireExchange i b t) (by simp) (by simp) (by simp) (by simp)
      (by simp)
  · rintro u ⟨host, field, -, rest⟩
    exact ⟨host, field, Nat.zero_le _, rest⟩

/-- The Restart Log is a ring of 16 (R94). -/
theorem append_records_length {l : RestartLog} (h : l.records.length ≤ 16) (r : LogRecord) :
    (l.append r).records.length ≤ 16 := by
  simp only [RestartLog.append]
  split <;> simp <;> omega

/-- An integrator after a demand stays in its range (R121). -/
theorem heaterDemand_integrator (s : State) (c : Heater)
    (h : 0 ≤ (s.heat.channel c).integrator ∧ (s.heat.channel c).integrator ≤ 6400) :
    0 ≤ (heaterDemand s c).2 ∧ (heaterDemand s c).2 ≤ 6400 := by
  cases hv : heaterValue s c with
  | none => rwa [heaterDemand_of_absent s c hv]
  | some f =>
    rw [heaterDemand_of_present s c f hv]
    dsimp only
    split
    · exact h
    · unfold clampInt
      omega

/-- A setup change empties a half without a new pin (R67). -/
theorem PinsBounded.afterSetup {r : ProxyRuntime} (h : PinsBounded r) (old new : ProxySetup) :
    PinsBounded (r.afterSetup old new) := by
  have emptied : ∀ x : ProxyHalf, x.pins ≤ 16 → x.emptied.pins ≤ 16 := by
    intro x hx
    unfold ProxyHalf.emptied
    split
    exacts [Nat.zero_le 16, hx]
  unfold ProxyRuntime.afterSetup
  split
  exacts [h, ⟨emptied _ h.1, emptied _ h.2⟩]

theorem proxyAfterReload_pins {old new : ProxySetupTable} {p : Vector ProxyRuntime 16}
    (h : PinsFit p) : PinsFit (proxyAfterReload old new p) := by
  intro e
  simpa [proxyAfterReload] using (h e).afterSetup old[e] new[e]

/-- Trimming takes entries from the Budget List and adds none (R93). -/
theorem WithinCapacity.trim {s : State} (h : WithinCapacity s) : WithinCapacity (trimBudget s) := by
  obtain ⟨host, field, keys, list, log, budget, rest⟩ := h
  exact ⟨host, field, keys, list, log, Nat.le_trans (List.drop_sublist _ _).length_le budget, rest⟩

theorem commitProxy_proxy (s : State) :
    (commitProxy s).proxy = proxyAfterReload s.tables.proxy.live s.tables.proxy.staging s.proxy := rfl

theorem WithinCapacity.swap {s : State} (h : WithinCapacity s) (table : Nat) : WithinCapacity (swapTable table s) := by
  have reloaded : WithinCapacity (commitProxy s) := by
    have fit : RepliesFit (commitProxy s) := by
      refine ⟨by simpa [commitProxy] using h.repliesFit.field, by simpa [commitProxy] using h.repliesFit.list, ?_⟩
      rw [commitProxy_proxy]
      exact proxyAfterReload_pins h.repliesFit.pins
    exact h.of_replies fit (by simp [commitProxy]) (by simp [commitProxy]) (by simp [commitProxy])
      (by simp [commitProxy]) (by simp [commitProxy])
  have settled : WithinCapacity { s with tables.settings := s.tables.settings.committed } := h
  unfold swapTable
  split
  case h_6 => exact settled.trim.block
  case h_7 => exact reloaded
  all_goals exact h

/-- Every copy of the settings in range, and everything within its capacity. -/
def Capacious (s : State) : Prop := AllSettingsInRange s ∧ WithinCapacity s

/-- Where the settings hold anyway, a part keeps both when it keeps the capacities. -/
theorem capacious_kept : Kept Capacious where
  other _ _ _ _ _ _ _ _ _ h := h
  unit _ _ _ h := h
  hostJoins s b room h := ⟨h.1, by simpa using room, h.2.2⟩
  fieldJoins s i room h := ⟨h.1, h.2.1, by simpa using room, h.2.2.2⟩
  rx _ _ _ h := ⟨allSettingsInRange_kept.rx _ _ _ h.1, by simpa [WithinCapacity] using h.2⟩
  keysTaken s _ h := by
    obtain ⟨inRange, host, field, keys, rest⟩ := h
    exact ⟨inRange, host, field, Nat.le_trans (List.drop_sublist _ _).length_le keys, rest⟩
  flushed s h := by
    obtain ⟨inRange, host, field, -, rest⟩ := h
    exact ⟨inRange, host, field, Nat.zero_le _, rest⟩
  composed p topic tag b t s h := ⟨allSettingsInRange_kept.composed p topic tag b t s h.1,
    h.2.of_replies (h.2.repliesFit.composeReply p topic tag b t) (by simp) (by simp) (by simp) (by simp) (by simp)⟩
  keyCopy topic tag t s down h := by
    have copied : RepliesFit (copyKeyList topic tag t s).2 := by
      obtain ⟨field, list, pins⟩ := h.2.repliesFit
      exact ⟨field, by simpa [copyKeyList, FieldKeyList.copied] using list, pins⟩
    exact ⟨allSettingsInRange_kept.keyCopy topic tag t s down h.1, h.2.of_replies (copied.offerReply _)
      (by simp [copyKeyList]) (by simp [copyKeyList]) (by simp [copyKeyList]) (by simp [copyKeyList])
      (by simp [copyKeyList])⟩
  captured topic payload t s h := ⟨allSettingsInRange_kept.captured topic payload t s h.1,
    h.2.of_replies (h.2.repliesFit.capture topic payload t) (by simp) (by simp) (by simp) (by simp) (by simp)⟩
  opened s e tag topic t hw he h := ⟨allSettingsInRange_kept.opened s e tag topic t hw he h.1,
    h.2.of_replies ⟨by simpa using h.2.repliesFit.field, by simpa using h.2.repliesFit.list,
      by simpa using h.2.repliesFit.pins⟩ (by simp) (by simp) (by simp) (by simp) (by simp)⟩
  absorbed i s h := ⟨allSettingsInRange_kept.absorbed i s h.1,
    h.2.of_replies ⟨by simpa using h.2.repliesFit.field, by simpa using h.2.repliesFit.list,
      by simpa using h.2.repliesFit.pins⟩ (by simp) (by simp) (by simp) (by simp) (by simp)⟩
  freed _ _ h := h
  expired i b t s h := ⟨allSettingsInRange_kept.expired i b t s h.1,
    h.2.of_replies (h.2.repliesFit.expireExchange i b t) (by simp) (by simp) (by simp) (by simp) (by simp)⟩
  hits _ _ h := h
  livef _ _ _ _ _ _ _ _ h := h
  accepted t s hs h := by
    obtain ⟨inRange, host, field, keys, list, rest⟩ := h
    rcases acceptHeartbeat_cases t s hs with ⟨-, e⟩ | ⟨-, e⟩ | ⟨-, e⟩ <;> rw [e]
    exacts [⟨inRange, host, field, keys, list, rest⟩, ⟨inRange, host, field, keys, Nat.zero_le _, rest⟩,
      ⟨inRange, host, field, keys, list, rest⟩]
  logged s r h := by
    obtain ⟨inRange, host, field, keys, list, log, rest⟩ := h
    exact ⟨inRange, host, field, keys, list, append_records_length log r, rest⟩
  entered st tm t s hst h := ⟨allSettingsInRange_kept.entered st tm t s hst h.1, h.2.enter st tm t⟩
  warned tm t s running h := ⟨allSettingsInRange_kept.warned tm t s running h.1, h.2.enter .warned tm t⟩
  aged t s h := by
    obtain ⟨inRange, host, field, keys, list, log, budget, rest⟩ := h
    exact ⟨inRange, host, field, keys, list, log,
      Nat.le_trans (List.Sublist.length_le (List.dropWhile_sublist _)) budget, rest⟩
  charged s x room h := by
    obtain ⟨inRange, host, field, keys, list, log, -, rest⟩ := h
    have limit := inRange.1.maxRestarts
    have room' : s.live.budget.length < s.tables.settings.live.maxRestarts.toNat := room
    exact ⟨inRange, host, field, keys, list, log, by simp; omega, rest⟩
  budget0 s h := by
    obtain ⟨inRange, host, field, keys, list, log, -, rest⟩ := h
    exact ⟨inRange, host, field, keys, list, log, Nat.zero_le _, rest⟩
  emptyLog s h := by
    obtain ⟨inRange, host, field, keys, list, -, rest⟩ := h
    exact ⟨inRange, host, field, keys, list, Nat.zero_le _, rest⟩
  heat s x hb hg h := by
    obtain ⟨inRange, host, field, keys, list, log, budget, pins, board, glass⟩ := h
    exact ⟨inRange, host, field, keys, list, log, budget, pins, hb ▸ board, hg ▸ glass⟩
  demand s h := by
    obtain ⟨inRange, host, field, keys, list, log, budget, pins, board, glass⟩ := h
    exact ⟨inRange, host, field, keys, list, log, budget, pins, heaterDemand_integrator s .board board,
      heaterDemand_integrator s .glass glass⟩
  filled e payload t s hp h := ⟨h.1, h.2.of_replies (h.2.repliesFit.fillInactive e payload t) rfl rfl rfl rfl rfl⟩
  tabs s t ht h := ⟨allSettingsInRange_kept.tabs s t ht h.1, h.2⟩
  swapped table s h := ⟨allSettingsInRange_kept.swapped table s h.1, h.2.swap table⟩
  storing table s h := ⟨allSettingsInRange_kept.storing table s h.1, h.2⟩
  stored s j hj h := ⟨allSettingsInRange_kept.stored s j hj h.1, h.2⟩
  learned s d h := ⟨allSettingsInRange_kept.learned s d h.1, h.2⟩
  offered e s up h := by
    obtain ⟨inRange, host, field, keys, rest⟩ := h
    unfold offerKeyEvent
    split
    · rename_i room
      exact ⟨inRange, host, field, by simpa using room, rest⟩
    · exact ⟨inRange, host, field, keys, rest⟩
  listed code t s down h := by
    obtain ⟨inRange, host, field, keys, list, rest⟩ := h
    unfold offerFieldKey
    split
    · rename_i room
      exact ⟨inRange, host, field, keys, by simpa using room, rest⟩
    · exact ⟨inRange, host, field, keys, list, rest⟩
  sendHost s x b r hq h := by
    obtain ⟨inRange, host, rest⟩ := h
    rw [hq, List.length_cons] at host
    exact ⟨inRange, by dsimp only; omega, rest⟩
  sendField s x b r hq h := by
    obtain ⟨inRange, host, field, rest⟩ := h
    rw [hq, List.length_cons] at field
    exact ⟨inRange, host, by dsimp only; omega, rest⟩
  endHost _ h := h

/-! ### The ends of a run of work: a field frame, the in-band reset, the two resets -/

theorem Capacious.after_finishField {s : State} (h : Capacious s) (i : FieldItem) : Capacious (finishField i s) := by
  have fit := h.2.repliesFit
  unfold finishField finishItem finishDescriptor
  dsimp only
  split
  · exact releaseBuffer_kept capacious_kept _ _ h
  · split
    · exact h
    · refine ⟨h.1, h.2.of_replies (RepliesFit.unpinHalf ?_ _ _) rfl rfl rfl rfl rfl⟩
      exact ⟨fit.field, fit.list, fit.pins⟩
    · refine ⟨h.1, h.2.of_replies ⟨fit.field, ?_, fit.pins⟩ rfl rfl rfl rfl rfl⟩
      exact Nat.le_trans (List.length_filter_le _ _) fit.list

/-- The in-band reset undoes what it discards, empties the queues and reloads the tables (R27, R68, R189). -/
theorem Capacious.after_inBandReset {s : State} (h : Capacious s) : Capacious (inBandReset s) := by
  have undone : RepliesFit ((fieldItems s).foldl discardItem s) :=
    foldl_kept _ (fun u i hu => by
      unfold discardItem
      split
      exacts [hu, hu.undoDescriptor _]) _ _ h.2.repliesFit
  obtain ⟨-, -, -, -, log, budget, -, integrators⟩ := h.2
  refine ⟨h.1.after_inBandReset, ?_⟩
  unfold inBandReset
  dsimp only
  refine WithinCapacity.block (.of_fit ⟨Nat.zero_le _, ?_, ?_⟩ (Nat.zero_le _) (Nat.zero_le _) (by simpa using log)
    (by simpa using budget) (by simpa using integrators))
  · simpa [resetPorts] using undone.list
  · exact proxyAfterReload_pins (by simpa [resetPorts] using undone.pins)

/-- The other two resets start from empty queues and lists, and from the log they are given (R98, R99). -/
theorem Capacious.after_reset {s : State} (h : Capacious s) {log : RestartLog}
    (hlog : log = {} ∨ log = logAfterLineReset s) : Capacious (initialState log s) := by
  have records : log.records.length ≤ 16 := by
    obtain ⟨-, -, -, -, kept, -⟩ := h.2
    rcases hlog with rfl | rfl
    · exact Nat.zero_le 16
    · unfold logAfterLineReset
      split
      exacts [append_records_length kept _, kept]
  have integratorStart : (0 : Int) ≤ 0 ∧ (0 : Int) ≤ 6400 := by decide
  refine ⟨h.1.after_reset log, Nat.zero_le _, Nat.zero_le _, Nat.zero_le _, Nat.zero_le _, records, Nat.zero_le _, ?_,
    integratorStart, integratorStart⟩
  intro e
  simp [initialState]

/-- The first half of O59. -/
theorem settings_and_capacities_kept (c : Instr) (s t : State) (h : AllSettingsInRange s) (ht : exec c s = .next t) :
    AllSettingsInRange t ∧ (WithinCapacity s → WithinCapacity t) := by
  refine ⟨?_, fun fits => ?_⟩
  · exact allSettingsInRange_kept.every_command (fun _ x _ h => h.after_finishField x.item)
      (fun _ h => h.after_inBandReset) (fun log _ _ h => h.after_reset log) c s t h ht
  · exact (capacious_kept.every_command (fun _ x _ h => h.after_finishField x.item) (fun _ h => h.after_inBandReset)
      (fun _ _ hlog h => h.after_reset hlog) c s t ⟨h, fits⟩ ht).2

end Sys2Proof.Machine
end

section
/-! SUPPORT. Pinned halves: what each part of a command leaves of a half that holds a pin, and the statement O21. -/

namespace Sys2Proof.Machine

/-! ### Halves of a Proxy Table entry (R61) -/

@[simp] theorem ProxyRuntime.get_set (r : ProxyRuntime) (i j : HalfId) (x : ProxyHalf) :
    (r.set i x).get j = if j = i then x else r.get j := by
  cases i <;> cases j <;> rfl

theorem ProxyRuntime.get_active (r : ProxyRuntime) (a : HalfId) (i : HalfId) :
    ({ r with active := a } : ProxyRuntime).get i = r.get i := by
  cases i <;> rfl

theorem setProxy_get (e j : ProxyId) (r : ProxyRuntime) (s : State) :
    (setProxy e r s).proxy[j] = if j = e then r else s.proxy[j] := by
  simp [Vector.getElem_set, Fin.ext_iff, eq_comm]

/-- A half holds a pin, with these bytes and this stamp (R63). -/
structure HoldsPinned (e : ProxyId) (h : HalfId) (x : ProxyHalf) (s : State) : Prop where
  pinned : 0 < (s.proxy[e].get h).pins
  payload : (s.proxy[e].get h).payload = x.payload
  stamp : (s.proxy[e].get h).stamp = x.stamp

section
variable {e : ProxyId} {h : HalfId} {x : ProxyHalf} {s : State}

theorem HoldsPinned.of_proxy {t : State} (k : HoldsPinned e h x s) (same : t.proxy = s.proxy) :
    HoldsPinned e h x t := by
  obtain ⟨pinned, payload, stamp⟩ := k
  rw [← same] at pinned payload stamp
  exact ⟨pinned, payload, stamp⟩

/-- An entry may change where it leaves the half's bytes, its stamp and a pin. -/
theorem HoldsPinned.setProxy (k : HoldsPinned e h x s) (j : ProxyId) (r : ProxyRuntime)
    (hr : j = e → 0 < (r.get h).pins ∧ (r.get h).payload = (s.proxy[e].get h).payload ∧
      (r.get h).stamp = (s.proxy[e].get h).stamp) : HoldsPinned e h x (setProxy j r s) := by
  obtain ⟨pinned, payload, stamp⟩ := k
  have entry := setProxy_get j e r s
  by_cases hj : e = j
  · rw [if_pos hj] at entry
    obtain ⟨pinned', payload', stamp'⟩ := hr hj.symm
    constructor <;> rw [entry]
    exacts [pinned', payload'.trans payload, stamp'.trans stamp]
  · rw [if_neg hj] at entry
    constructor <;> rw [entry]
    exacts [pinned, payload, stamp]

theorem HoldsPinned.pinHalf (k : HoldsPinned e h x s) (j : ProxyId) (i : HalfId) :
    HoldsPinned e h x (pinHalf j i s) := by
  refine k.setProxy j _ ?_
  rintro rfl
  rw [ProxyRuntime.get_set]
  split
  · subst h
    exact ⟨Nat.succ_pos _, rfl, rfl⟩
  · exact ⟨k.pinned, rfl, rfl⟩

theorem HoldsPinned.fillInactive (k : HoldsPinned e h x s) (j : ProxyId) (payload : List Byte) (t : Instant)
    (free : inactivePinned j s = false) : HoldsPinned e h x (fillInactive j payload t s) := by
  refine k.setProxy j _ ?_
  rintro rfl
  rw [ProxyRuntime.get_active, ProxyRuntime.get_set]
  have elsewhere : h ≠ s.proxy[j].active.other := by
    rintro rfl
    have : ¬0 < (s.proxy[j].get s.proxy[j].active.other).pins := by simpa [inactivePinned] using free
    exact this k.pinned
  rw [if_neg elsewhere]
  exact ⟨k.pinned, rfl, rfl⟩

end

/-- A pin given back at once leaves the Proxy Table as it was (R63). -/
theorem unpinHalf_pinHalf (j : ProxyId) (i : HalfId) (s : State) : (unpinHalf j i (pinHalf j i s)).proxy = s.proxy := by
  have entry : ∀ r : ProxyRuntime, r.set i { r.get i with pins := (r.get i).pins + 1 - 1 } = r := by
    intro r
    cases i <;> rfl
  have once : ∀ (r : ProxyRuntime) (y z : ProxyHalf), (r.set i y).set i z = r.set i z := by
    intro r y z
    cases i <;> rfl
  have pinned := setProxy_get j j (s.proxy[j].set i { s.proxy[j].get i with pins := (s.proxy[j].get i).pins + 1 }) s
  rw [if_pos rfl] at pinned
  unfold unpinHalf pinHalf
  dsimp only
  rw [pinned, ProxyRuntime.get_set, if_pos rfl, once, entry]
  simp

/-- A reply that references a half is offered with its pin, and gives the pin back where it is refused (R19, R63). -/
theorem offerReply_pins (d : Descriptor) (j : ProxyId) (i : HalfId) (s u : State) (hd : d.source = .half j i)
    (hu : u.proxy = (pinHalf j i s).proxy) :
    (offerReply d u).proxy = s.proxy ∨ (offerReply d u).proxy = (pinHalf j i s).proxy := by
  unfold offerReply
  split
  · exact .inr hu
  · refine .inl ?_
    have back : ∀ v w : State, v.proxy = w.proxy → (unpinHalf j i v).proxy = (unpinHalf j i w).proxy := by
      intro v w hvw
      simp only [unpinHalf, setProxy, hvw]
    unfold undoDescriptor
    rw [hd]
    exact (back (bump Ctr.droppedComposedReplies u) _ hu).trans (unpinHalf_pinHalf j i s)

/-- A composed reply takes one pin or none: one refused by a full queue gives its pin back (R62, R63). -/
theorem composeReply_pins (p : ReplyPurpose) (topic tag : Byte) (b : Bool) (t : Instant) (s : State) :
    (composeReply p topic tag b t s).proxy = s.proxy ∨
    ∃ (j : ProxyId) (i : HalfId), (composeReply p topic tag b t s).proxy = (pinHalf j i s).proxy := by
  have bare : ∀ (f : ReplyFlags) (u : State), (offerBareReply topic tag f u).proxy = u.proxy := by
    intro f u
    unfold offerBareReply offerReply undoDescriptor
    split <;> rfl
  have noHalf : (noHalfReply p topic tag b s).proxy = s.proxy := by
    unfold noHalfReply
    split <;> rw [bare]
    rfl
  unfold composeReply
  dsimp only
  split
  · rename_i j _
    split
    · split
      · refine (offerReply_pins _ j s.proxy[j].active s _ rfl ?_).imp_right fun e => ⟨_, _, e⟩
        split <;> rfl
      · exact .inl (bare _ _)
    · exact .inl noHalf
  · exact .inl noHalf

section
variable {e : ProxyId} {h : HalfId} {x : ProxyHalf} {s : State}

theorem HoldsPinned.composeReply (k : HoldsPinned e h x s) (p : ReplyPurpose) (topic tag : Byte) (b : Bool)
    (t : Instant) : HoldsPinned e h x (composeReply p topic tag b t s) := by
  rcases composeReply_pins p topic tag b t s with same | ⟨j, i, pinned⟩
  exacts [k.of_proxy same, (k.pinHalf j i).of_proxy pinned]

theorem HoldsPinned.expireExchange (k : HoldsPinned e h x s) (i : ExchangeId) (b : Bool) (t : Instant) :
    HoldsPinned e h x (expireExchange i b t s) := by
  unfold Machine.expireExchange
  split
  · rename_i r _
    have late : HoldsPinned e h x (setExchange i (.late r (startTimer t (settings s).lateHold.toNat)) s) :=
      k.of_proxy rfl
    exact (late.composeReply .expiry r.topic r.tag b t).of_proxy rfl
  · exact k

theorem HoldsPinned.capture (k : HoldsPinned e h x s) (topic : Byte) (payload : List Byte) (t : Instant) :
    HoldsPinned e h x (capture topic payload t s) := by
  unfold Machine.capture
  split
  · exact k.of_proxy rfl
  · split
    · exact k.of_proxy rfl
    · rename_i j _ free
      exact (k.fillInactive j payload t (by simpa using free)).of_proxy rfl

theorem HoldsPinned.enter (k : HoldsPinned e h x s) (st : Liveness) (tm : Option Timer) (t : Instant) :
    HoldsPinned e h x (enterState st tm t s) :=
  enterState_of_parts (fun _ _ _ k => k.of_proxy rfl) (fun _ k => k.of_proxy (by simp))
    (fun i b t _ k => k.expireExchange i b t) (fun _ k => k.of_proxy rfl) (fun _ _ _ k => k.of_proxy rfl) st tm t s k

/-- A half that a setup change empties keeps its bytes, its stamp and its pins while it holds one (R67). -/
theorem HoldsPinned.commitProxy (k : HoldsPinned e h x s) : HoldsPinned e h x (commitProxy s) := by
  have emptied : ∀ y : ProxyHalf, 0 < y.pins →
      0 < y.emptied.pins ∧ y.emptied.payload = y.payload ∧ y.emptied.stamp = y.stamp := by
    intro y hy
    unfold ProxyHalf.emptied
    rw [if_neg hy.ne']
    exact ⟨hy, rfl, rfl⟩
  have after : ∀ (r : ProxyRuntime) (old new : ProxySetup), 0 < (r.get h).pins →
      0 < ((r.afterSetup old new).get h).pins ∧ ((r.afterSetup old new).get h).payload = (r.get h).payload ∧
      ((r.afterSetup old new).get h).stamp = (r.get h).stamp := by
    intro r old new hr
    unfold ProxyRuntime.afterSetup
    split
    · exact ⟨hr, rfl, rfl⟩
    · cases h
      exacts [emptied _ hr, emptied _ hr]
  have entry : (Machine.commitProxy s).proxy[e] =
      s.proxy[e].afterSetup s.tables.proxy.live[e] s.tables.proxy.staging[e] := by
    simp [commitProxy_proxy, proxyAfterReload]
  obtain ⟨pinned, payload, stamp⟩ := k
  obtain ⟨pinned', payload', stamp'⟩ := after s.proxy[e] s.tables.proxy.live[e] s.tables.proxy.staging[e] pinned
  constructor <;> rw [entry]
  exacts [pinned', payload'.trans payload, stamp'.trans stamp]

theorem HoldsPinned.swap (k : HoldsPinned e h x s) (table : Nat) : HoldsPinned e h x (swapTable table s) := by
  unfold swapTable
  split
  case h_6 => exact k.of_proxy (by simp [commitSettings])
  case h_7 => exact k.commitProxy
  all_goals exact k.of_proxy rfl

end

/-- Every part of a command leaves a pinned half its bytes, its stamp and a pin. -/
theorem holdsPinned_kept (e : ProxyId) (h : HalfId) (x : ProxyHalf) : Kept (HoldsPinned e h x) where
  other _ _ _ _ _ _ _ _ _ k := k.of_proxy rfl
  unit _ _ _ k := k.of_proxy rfl
  hostJoins _ _ _ k := k.of_proxy rfl
  fieldJoins _ _ _ k := k.of_proxy rfl
  rx _ _ _ k := k.of_proxy (by simp)
  keysTaken _ _ k := k.of_proxy rfl
  flushed _ k := k.of_proxy rfl
  composed p topic tag b t _ k := k.composeReply p topic tag b t
  keyCopy topic tag t s _ k := k.of_proxy (by
    unfold offerReply undoDescriptor
    split <;> rfl)
  captured topic payload t _ k := k.capture topic payload t
  opened _ _ _ _ _ _ _ k := k.of_proxy (by simp)
  absorbed _ _ k := k.of_proxy (by simp)
  freed _ _ k := k.of_proxy rfl
  expired i b t _ k := k.expireExchange i b t
  hits _ _ k := k.of_proxy rfl
  livef _ _ _ _ _ _ _ _ k := k.of_proxy rfl
  accepted t s hs k := by
    rcases acceptHeartbeat_cases t s hs with ⟨-, e⟩ | ⟨-, e⟩ | ⟨-, e⟩ <;> rw [e]
    all_goals exact k.of_proxy rfl
  logged _ _ k := k.of_proxy rfl
  entered st tm t _ _ k := k.enter st tm t
  warned tm t _ _ k := k.enter .warned tm t
  aged _ _ k := k.of_proxy rfl
  charged _ _ _ k := k.of_proxy rfl
  budget0 _ k := k.of_proxy rfl
  emptyLog _ k := k.of_proxy rfl
  heat _ _ _ _ k := k.of_proxy rfl
  demand _ k := k.of_proxy rfl
  filled j payload t _ free k := k.fillInactive j payload t free
  tabs _ _ _ k := k.of_proxy rfl
  swapped table _ k := k.swap table
  storing _ _ k := k.of_proxy rfl
  stored _ _ _ k := k.of_proxy rfl
  learned _ _ k := k.of_proxy rfl
  offered _ _ _ k := k.of_proxy (by simp)
  listed _ _ _ _ k := k.of_proxy (by simp)
  sendHost _ _ _ _ _ k := k.of_proxy rfl
  sendField _ _ _ _ _ k := k.of_proxy rfl
  endHost _ k := k.of_proxy rfl

/-- The end of a field frame may release a half's pin, and changes neither its bytes nor its stamp (R24, R63). -/
theorem finishField_half (i : FieldItem) (s : State) (e : ProxyId) (h : HalfId) :
    ((finishField i s).proxy[e].get h).payload = (s.proxy[e].get h).payload ∧
    ((finishField i s).proxy[e].get h).stamp = (s.proxy[e].get h).stamp := by
  have unpinned : ∀ (j : ProxyId) (g : HalfId) (u : State), u.proxy = s.proxy →
      ((unpinHalf j g u).proxy[e].get h).payload = (s.proxy[e].get h).payload ∧
      ((unpinHalf j g u).proxy[e].get h).stamp = (s.proxy[e].get h).stamp := by
    intro j g u hu
    unfold unpinHalf
    dsimp only
    rw [setProxy_get, hu]
    split
    · rename_i hj
      subst hj
      rw [ProxyRuntime.get_set]
      split
      · rename_i hg
        subst hg
        exact ⟨rfl, rfl⟩
      · exact ⟨rfl, rfl⟩
    · exact ⟨rfl, rfl⟩
  unfold finishField finishItem finishDescriptor
  dsimp only
  split
  · simp
  · split
    · exact ⟨rfl, rfl⟩
    · exact unpinned _ _ _ rfl
    · exact ⟨rfl, rfl⟩

/-- Settles O21: every part of a command leaves a pinned half a pin, but for the end of a field frame, which touches
only the pin; the in-band reset is shut out by the two hypotheses that name it. -/
theorem pinnedHalvesKeepTheirBytes : Obligations.PinnedHalvesKeepTheirBytes := by
  intro c s t e h ht notPower notLine notEnd room pinned
  have K := holdsPinned_kept e h (s.proxy[e].get h)
  have held : HoldsPinned e h (s.proxy[e].get h) s := ⟨pinned, rfl, rfl⟩
  by_cases field : c = .transmissionComplete .field
  · subst field
    simp only [exec, execTransmissionComplete, Host.Outcome.next.injEq] at ht
    subst ht
    split
    exacts [finishField_half _ s e h, ⟨rfl, rfl⟩]
  suffices kept : HoldsPinned e h (s.proxy[e].get h) t from ⟨kept.payload, kept.stamp⟩
  rcases command_kinds c with hc | hc | rfl | rfl
  · refine management_kept K c s t held ht hc fun ⟨p, hp⟩ full => ?_
    exact absurd (room p hp) (Nat.not_lt.mpr full)
  · refine event_kept K c s t held ht hc (fun hf => absurd hf field) fun hend x _ reset => ?_
    rw [notEnd hend] at reset
    cases reset
  · exact absurd rfl notPower
  · exact absurd rfl notLine

end Sys2Proof.Machine
end

section
/-! SUPPORT. What a command can make of liveness, and the statements O29 (LATCHED), O30 (the timers of the states) and
O46 (Frozen). -/

namespace Sys2Proof.Machine

/-! ### Liveness and its timer, from one state to a later one (R75, R87) -/

/-- The states that run a timer (section 4.1). -/
def Liveness.hasTimer : Liveness → Bool
  | .off | .coldHold | .hotHold | .latched => false
  | _ => true

theorem timerMatchesState_iff (s : State) :
    TimerMatchesState s ↔ s.live.timer.isSome = s.live.state.hasTimer := by
  unfold TimerMatchesState
  cases s.live.state <;> exact Iff.rfl

/-- Liveness keeps its state with or without a running timer, or it enters a state with the timer of that state, from
LATCHED only where `release` holds. -/
def LivenessMoves (release : Prop) (a b : LivenessController) : Prop :=
  (b.state = a.state ∧ b.timer.isSome = a.timer.isSome) ∨
  (b.timer.isSome = b.state.hasTimer ∧ (a.state = .latched → release ∨ b.state = .latched))

section
variable {release : Prop}

theorem LivenessMoves.refl (a : LivenessController) : LivenessMoves release a a := .inl ⟨rfl, rfl⟩

theorem LivenessMoves.of_eq {a b : LivenessController} (h : b = a) : LivenessMoves release a b := h ▸ .refl _

theorem LivenessMoves.trans {a b c : LivenessController} (h : LivenessMoves release a b)
    (h' : LivenessMoves release b c) : LivenessMoves release a c := by
  rcases h with ⟨hs, ht⟩ | ⟨ht, hl⟩ <;> rcases h' with ⟨hs', ht'⟩ | ⟨ht', hl'⟩
  · exact .inl ⟨hs'.trans hs, ht'.trans ht⟩
  · exact .inr ⟨ht', hs ▸ hl'⟩
  · exact .inr ⟨by rw [ht', ht, hs'], hs' ▸ hl⟩
  · exact .inr ⟨ht', fun h => (hl h).elim .inl hl'⟩

theorem enterState_timer (st : Liveness) (tm : Option Timer) (t : Instant) (s : State) :
    (enterState st tm t s).live.timer = tm := by
  simp only [enterState, hostPowerOn]
  (repeat' split) <;> simp

theorem enterState_moves (st : Liveness) (tm : Option Timer) (t : Instant) (s : State)
    (htm : tm.isSome = st.hasTimer) (hs : s.live.state = .latched → release ∨ st = .latched) :
    LivenessMoves release s.live (enterState st tm t s).live :=
  .inr ⟨by rw [enterState_timer, enterState_state, htm], by rw [enterState_state]; exact hs⟩

theorem leaveColdHold_moves (t : Instant) (s : State) : LivenessMoves release s.live (leaveColdHold t s).live := by
  unfold leaveColdHold
  split
  · rename_i h
    simp only [Bool.and_eq_true, beq_iff_eq] at h
    exact enterState_moves _ _ _ _ rfl fun hs => absurd (hs ▸ h.1.1) nofun
  · exact .refl _

theorem enterColdHold_moves (t : Instant) (s : State) (hs : s.live.state = .latched → release) :
    LivenessMoves release s.live (enterColdHold t s).live :=
  (enterState_moves .coldHold none t s rfl fun h => .inl (hs h)).trans (leaveColdHold_moves t _)

theorem enterBooting_moves (t : Instant) (s : State) (hs : s.live.state ≠ .latched) :
    LivenessMoves release s.live (enterBooting t s).live :=
  enterState_moves .booting _ t s rfl fun h => absurd h hs

theorem enterWarned_moves (t : Instant) (s : State) (hs : s.live.state ≠ .latched) :
    LivenessMoves release s.live (enterWarned t s).live := by
  simp only [enterWarned, bump_live, composeNotice_live]
  exact enterState_moves .warned _ t s rfl fun h => absurd h hs

theorem countedRestart_moves (c : RestartCause) (t : Instant) (s : State) (hs : s.live.state ≠ .latched) :
    LivenessMoves release s.live (countedRestart c t s).live := by
  have aged : (ageBudget t s).live.state = s.live.state ∧
      (ageBudget t s).live.timer.isSome = s.live.timer.isSome := ⟨rfl, rfl⟩
  unfold countedRestart
  dsimp only
  generalize ageBudget t s = u at aged ⊢
  refine .trans (.inl aged) ?_
  rw [← aged.1] at hs
  split
  · exact enterState_moves .latched none t (writeLog c .powerOff true t u) rfl fun _ => .inr rfl
  · unfold makeRestart
    dsimp only
    generalize hv : bump Ctr.livenessCountedRestarts _ = v
    have charged : v.live.state = u.live.state ∧ v.live.timer.isSome = u.live.timer.isSome := by
      rw [← hv]
      exact ⟨rfl, rfl⟩
    refine .trans (.inl charged) ?_
    rw [← charged.1] at hs
    split
    · exact enterState_moves .cycling _ t (writeLog c .powerCycle true t v) rfl fun h => absurd h hs
    · exact enterState_moves .resetting _ t (writeLog c .resetPulse true t v) rfl fun h => absurd h hs

theorem uncountedRestart_moves (c : RestartCause) (cycle : Bool) (t : Instant) (s : State)
    (hs : s.live.state ≠ .latched) : LivenessMoves release s.live (uncountedRestart c cycle t s).live := by
  unfold uncountedRestart
  dsimp only
  generalize hu : bump Ctr.livenessUncountedRestarts s = u
  have live : u.live = s.live := by
    rw [← hu]
    rfl
  rw [← live] at hs ⊢
  split
  · exact enterState_moves .cycling _ t (writeLog c .powerCycle false t u) rfl fun h => absurd h hs
  · exact enterState_moves .resetting _ t (writeLog c .resetPulse false t u) rfl fun h => absurd h hs

theorem finishStop_moves (t : Instant) (s : State) (hs : s.live.state ≠ .latched) :
    LivenessMoves release s.live (finishStop t s).live :=
  enterState_moves .off none t _ rfl fun h => absurd h hs

theorem startStop_moves (delay : Nat) (t : Instant) (s : State) (hs : s.live.state ≠ .latched) :
    LivenessMoves release s.live (startStop delay t s).live := by
  have entered : ∀ timer : Timer, ∀ u : State, u = (if s.live.state == .stopping then { s with live.timer := timer }
      else enterState .stopping (some timer) t s) →
      LivenessMoves release s.live u.live ∧ u.live.state = .stopping := by
    rintro timer u rfl
    split
    · rename_i h
      have stopping := beq_iff_eq.mp h
      exact ⟨.inr ⟨by simp [stopping, Liveness.hasTimer], fun h => absurd h hs⟩, stopping⟩
    · exact ⟨enterState_moves .stopping _ t s rfl fun h => absurd h hs, enterState_state ..⟩
  obtain ⟨moves, stopping⟩ := entered _ _ rfl
  unfold startStop
  dsimp only
  split
  · exact moves.trans (finishStop_moves t _ (by rw [stopping]; nofun))
  · exact moves

theorem releaseHost_moves (t : Instant) (s : State) (h : release) :
    LivenessMoves release s.live (releaseHost t s).live := by
  unfold releaseHost
  split
  · exact enterColdHold_moves t s fun _ => h
  · exact enterColdHold_moves t { s with live := { s.live with budget := [], failedRestarts := 0 } } fun _ => h
  · exact .refl _

theorem handOverThermal_moves (before : State) (t : Instant) (s : State) :
    LivenessMoves release s.live (handOverThermal before t s).live := by
  have raised : LivenessMoves release s.live (hotRaised t s).live := by
    unfold hotRaised
    split
    · rename_i h
      refine enterState_moves .hotHold none t (writeLog .overTemperature .powerOff false t s) rfl fun hs => ?_
      rw [writeLog_live] at hs
      simp [hostPowerEnable, hs, Liveness.isPowered] at h
    · exact .refl _
  have cleared : LivenessMoves release s.live (hotCleared t s).live := by
    unfold hotCleared
    split
    · rename_i h
      exact enterColdHold_moves t s fun hs => absurd (beq_iff_eq.mp h) (by rw [hs]; nofun)
    · exact leaveColdHold_moves t s
  have hot : LivenessMoves release s.live (if s.temp.hot && !before.temp.hot then hotRaised t s
      else if before.temp.hot && !s.temp.hot then hotCleared t s else s).live := by
    split
    · exact raised
    · split
      · exact cleared
      · exact .refl _
  unfold handOverThermal
  dsimp only
  generalize (if (s.temp.hot && !before.temp.hot) = true then hotRaised t s
      else if (before.temp.hot && !s.temp.hot) = true then hotCleared t s else s) = v at hot ⊢
  split
  · exact hot.trans (leaveColdHold_moves t _)
  · exact hot

theorem chordRestart_moves (cycle : Bool) (t : Instant) (s : State) :
    LivenessMoves release s.live (chordRestart cycle t s).live := by
  unfold chordRestart
  split
  · rename_i h
    refine uncountedRestart_moves _ cycle t s fun hs => ?_
    simp [hostPowerEnable, hs, Liveness.isPowered] at h
  · exact .refl _

theorem chordAct_moves (e : ChordEntry) (t : Instant) (s : State) (hr : e.action = .releaseHost → release) :
    LivenessMoves release s.live (chordAct e t s).live := by
  unfold chordAct
  split
  next => exact chordRestart_moves false t s
  next => exact chordRestart_moves true t s
  next h =>
    unfold chordRelease
    split
    · exact releaseHost_moves t s (hr h)
    · exact .refl _
  all_goals exact .refl _

theorem fireChord_moves (c : ChordId) (t : Instant) (s : State)
    (hr : s.tables.chord.live[c].action = .releaseHost → release) :
    LivenessMoves release s.live (fireChord c t s).live := by
  unfold fireChord
  dsimp only
  generalize hu : composeNotice topicChord _ (setChord c .fired s) = u
  have live : u.live = s.live := by rw [← hu]; simp
  rw [← live]
  split
  · exact chordAct_moves _ t (bump Ctr.keysChordActionsTaken u) hr
  · exact .refl _

end

/-! ### What a completed frame can move (R46, R85) -/

/-- The heaters, the Settings and Frozen stand; liveness keeps its state and whether its timer runs, or a heartbeat
heard takes it to RUNNING. -/
def FrameMoves (s t : State) : Prop :=
  t.heat = s.heat ∧ t.tables.settings = s.tables.settings ∧ t.mgmt.frozen = s.mgmt.frozen ∧
  ((t.live.state = s.live.state ∧ t.live.timer.isSome = s.live.timer.isSome) ∨
    (s.live.state.hears = true ∧ t.live.state = .running ∧ t.live.timer.isSome = true))

theorem FrameMoves.refl (s : State) : FrameMoves s s := ⟨rfl, rfl, rfl, .inl ⟨rfl, rfl⟩⟩

theorem FrameMoves.of_same {s u t : State} (h : FrameMoves u t) (heat : u.heat = s.heat)
    (settings : u.tables.settings = s.tables.settings) (mgmt : u.mgmt.frozen = s.mgmt.frozen)
    (live : u.live = s.live) : FrameMoves s t := by
  unfold FrameMoves at h ⊢
  rwa [heat, settings, mgmt, live] at h

theorem acceptHeartbeat_frameMoves (t : Instant) (s : State) (h : s.live.state.hears = true) :
    FrameMoves s (acceptHeartbeat t s) := by
  rcases acceptHeartbeat_cases t s h with ⟨hs, e⟩ | ⟨-, e⟩ | ⟨-, e⟩ <;> rw [e]
  · exact ⟨rfl, rfl, rfl, .inr ⟨h, hs, rfl⟩⟩
  · exact ⟨rfl, rfl, rfl, .inr ⟨h, rfl, rfl⟩⟩
  · exact ⟨rfl, rfl, rfl, .inr ⟨h, rfl, rfl⟩⟩

theorem trafficHeartbeat_frameMoves (t : Instant) (s : State) : FrameMoves s (trafficHeartbeat t s) := by
  unfold trafficHeartbeat
  split
  · rename_i h
    exact acceptHeartbeat_frameMoves t s (Bool.and_eq_true_iff.mp h).2
  · exact .refl s

theorem routeByLookup_frameMoves (f : RoutedFrame) (m : Option ExchangeId) (s : State) :
    FrameMoves s (routeByLookup f m s) := by
  unfold routeByLookup
  split
  · rename_i i _
    dsimp only
    rw [routeFeed_eq]
    split
    · exact (trafficHeartbeat_frameMoves _ _).of_same (by simp) (by simp [hit]) (by simp) (by simp)
    · exact (FrameMoves.refl _).of_same (by simp) (by simp [hit]) (by simp) (by simp)
  · exact (FrameMoves.refl _).of_same (by simp) (by simp) (by simp) (by simp)

theorem routeLate_frameMoves (f : RoutedFrame) (r : Request) (s : State) : FrameMoves s (routeLate f r s) := by
  unfold routeLate
  split
  · exact ⟨by simp [reportLateReply], by simp [reportLateReply, hit], by simp [reportLateReply],
      .inl ⟨by simp [reportLateReply], by simp [reportLateReply]⟩⟩
  · exact ⟨by simp [reportLateReply], by simp [reportLateReply], by simp [reportLateReply],
      .inl ⟨by simp [reportLateReply], by simp [reportLateReply]⟩⟩

theorem releaseBuffer_frameMoves (b : BufferId) {s u : State} (h : FrameMoves s u) :
    FrameMoves s (releaseBuffer b u) := by
  unfold FrameMoves at h ⊢
  simpa using h

theorem routeFrame_frameMoves (f : RoutedFrame) (s : State) : FrameMoves s (routeFrame f s) := by
  unfold routeFrame routeOwnRequest routeHostReply
  split
  · split
    · exact ⟨by simp, by simp, by simp, .inl ⟨by simp, by simp⟩⟩
    · split
      · exact releaseBuffer_frameMoves _ ((FrameMoves.refl _).of_same (by simp) (by simp) (by simp) (by simp))
      · exact routeByLookup_frameMoves f none s
  · split
    · (repeat' split) <;> first
        | exact routeByLookup_frameMoves f _ s
        | exact routeLate_frameMoves f _ s
        | exact releaseBuffer_frameMoves _ (.refl s)
    · exact routeByLookup_frameMoves f none s

theorem dispatchFrame_frameMoves (p : Port) (b : BufferId) (a : Address) (s : State) :
    FrameMoves s (dispatchFrame p b a s) := by
  unfold dispatchFrame handToManagement
  dsimp only
  (repeat' split) <;> first
    | exact routeFrame_frameMoves _ s
    | exact ⟨rfl, rfl, rfl, .inl ⟨rfl, rfl⟩⟩
    | exact ⟨by simp, by simp, by simp, .inl ⟨by simp, by simp⟩⟩
    | exact releaseBuffer_frameMoves _ (.refl s)

theorem completeFrame_frameMoves (p : Port) (s : State) : FrameMoves s (completeFrame p s) := by
  unfold completeFrame
  split
  · dsimp only
    split
    · exact (dispatchFrame_frameMoves p _ _ _).of_same (by simp) (by simp) (by simp) (by simp)
    · exact (releaseBuffer_frameMoves _ (.refl _)).of_same (by simp) (by simp) (by simp) (by simp)
  · exact .refl s

theorem FrameMoves.liveness {release : Prop} {s t : State} (h : FrameMoves s t) :
    LivenessMoves release s.live t.live := by
  obtain ⟨-, -, -, stays | ⟨heard, running, timer⟩⟩ := h
  · exact .inl stays
  · exact .inr ⟨by rw [timer, running]; rfl, fun hs => absurd heard (by rw [hs]; nofun)⟩

/-! ### Every command but the two resets (R75, R87) -/

/-- The two ways that release a latched host by a command (R87). -/
def Releases (c : Instr) (s : State) : Prop :=
  (∃ p : Port, c = .hostRelease p) ∨ (∃ k : ChordId, c = .chordFire k ∧ s.tables.chord.live[k].action = .releaseHost)

theorem inBandReset_live (s : State) : (inBandReset s).live = s.live := by
  simp [inBandReset]

theorem swapTable_live (table : Nat) (s : State) :
    (swapTable table s).live.state = s.live.state ∧ (swapTable table s).live.timer = s.live.timer := by
  unfold swapTable commitSettings
  split <;> simp [commitRoute, commitKeyMap, commitChord, commitCurveA, commitCurveB, commitProxy, trimBudget]

theorem event_moves (c : Instr) (s t : State) (ht : exec c s = .next t) (hc : IsEvent c) :
    LivenessMoves (Releases c s) s.live t.live := by
  apply event_cases (fun t => LivenessMoves (Releases c s) s.live t.live) c s (.refl _) (t := t) (ht := ht) (hi := hc)
  case hchar => exact fun p e u h => by simpa using h
  case hcomp => exact fun p => (completeFrame_frameMoves p s).liveness
  case hfield => exact fun i rest _ _ => .of_eq (by simp [startFieldSending])
  case hfh =>
    intro x _ _
    unfold finishHost
    dsimp only
    split <;> exact .of_eq (by simp [inBandReset_live])
  case hff => exact fun x _ _ => .of_eq (by simp [finishField])
  case hboot => exact fun hs => enterBooting_moves _ s (by rcases hs with hs | hs <;> rw [hs] <;> nofun)
  case hcr => exact fun cause hs => countedRestart_moves cause _ s (by rcases hs with hs | hs <;> rw [hs] <;> nofun)
  case hwarn => exact fun hs => enterWarned_moves _ s (by rw [hs]; nofun)
  case hpow => exact fun hs => enterState_moves .powering _ _ s rfl fun h => absurd (hs.symm.trans h) nofun
  case hcold => exact fun hs => enterColdHold_moves _ s fun h => absurd (hs.symm.trans h) nofun
  case hstop => exact fun hs => finishStop_moves _ s (by rw [hs]; nofun)
  case htemp =>
    refine fun b g a => .trans (.of_eq ?_) (handOverThermal_moves _ _ _)
    simp
  case hdwell => exact leaveColdHold_moves _ (setReadiness .ready none s)
  case hkey =>
    intro raw
    rw [updateChords_live, handOverOutcomes_live,
      scanSample_keeps State.live raw s (fun _ _ => rfl) (fun _ _ _ => rfl) (fun _ _ _ => by simp)]
    exact .refl _
  case hchord => exact fun k hk => fireChord_moves k _ s fun h => .inr ⟨k, hk, h⟩
  all_goals
    intros
    exact .of_eq (by simp [takeDemand, activateCutoff, completeLearn])

theorem earlyFeed_moves {release : Prop} (t : Instant) (s : State) (hs : s.live.state ≠ .latched) :
    LivenessMoves release s.live (earlyFeed t s).live := by
  unfold earlyFeed
  dsimp only
  generalize hu : bump Ctr.livenessEarlyFeeds _ = u
  have counted : u.live.state = s.live.state ∧ u.live.timer.isSome = s.live.timer.isSome := by
    rw [← hu]
    exact ⟨rfl, rfl⟩
  rw [← counted.1] at hs
  refine .trans (.inl counted) ?_
  split
  · exact countedRestart_moves .earlyFeed t { u with live.earlyStreak := 0 } hs
  · exact .refl _

theorem doFeed_moves {release : Prop} (c : Command) (s : State) :
    LivenessMoves release s.live (doFeed c s).state.live := by
  unfold doFeed
  split
  · rename_i heard
    split
    · have hs : s.live.state ≠ .latched := by
        intro hs
        rw [hs] at heard
        cases heard
      exact earlyFeed_moves c.arrival s hs
    · exact (acceptHeartbeat_frameMoves c.arrival s heard).liveness
  · exact .refl _

theorem doHostPowerOff_moves {release : Prop} (c : Command) (s : State) :
    LivenessMoves release s.live (doHostPowerOff c s).state.live := by
  unfold doHostPowerOff
  dsimp only
  split
  · exact .refl _
  · split
    · rename_i powered
      refine startStop_moves _ _ s fun hs => ?_
      simp [hostPowerEnable, hs, Liveness.isPowered] at powered
    · split
      · rename_i unpowered
        refine enterState_moves .off none _ s rfl fun hs => ?_
        simp [hs] at unpowered
      · exact .refl _

theorem management_moves (c : Instr) (s t : State) (ht : exec c s = .next t) (hc : IsManagement c) :
    LivenessMoves (Releases c s) s.live t.live := by
  apply management_cases (fun t => LivenessMoves (Releases c s) s.live t.live) c s (t := t) (ht := ht) (hi := hc)
  case hreply => exact fun code q r d u h => by simpa using h
  case hcommit => exact fun w table => .inl ((swapTable_live table _).imp_right (congrArg Option.isSome))
  case hfeed => exact fun w q => doFeed_moves q { s with mgmt.waiting := w }
  case hrestart =>
    refine fun w cycle now powered => uncountedRestart_moves _ cycle now { s with mgmt.waiting := w } fun hs => ?_
    simp [hostPowerEnable, show s.live.state = .latched from hs, Liveness.isPowered] at powered
  case hoff => exact fun w q => doHostPowerOff_moves q { s with mgmt.waiting := w }
  case hrel =>
    exact fun w now released _ => releaseHost_moves now { s with mgmt.waiting := w } (.inl released)
  case hreset =>
    intro w q _
    unfold requestReset
    dsimp only
    split <;> exact .of_eq (by simp [inBandReset_live])
  case hstore => exact fun _ _ h => h
  all_goals
    intros
    exact .of_eq (by simp [clearCounters, startLearn]; try (split <;> rfl))

/-- Settles O29: no command but a release moves liveness out of LATCHED. -/
theorem latchedIsLeftOnlyByRelease : Obligations.LatchedIsLeftOnlyByRelease := by
  intro c s t ht latched left
  have by_move : LivenessMoves (Releases c s) s.live t.live → Releases c s := by
    rintro (⟨same, -⟩ | ⟨-, h⟩)
    · exact absurd (same.trans latched) left
    · exact (h latched).resolve_right left
  rcases command_kinds c with hc | hc | rfl | rfl
  · exact .inr (.inr (by_move (management_moves c s t ht hc)))
  · exact .inr (.inr (by_move (event_moves c s t ht hc)))
  · exact .inl rfl
  · exact .inr (.inl rfl)

theorem autoStart_timerMatchesState (s : State) (h : TimerMatchesState s) : TimerMatchesState (autoStart s) := by
  unfold autoStart
  split
  · rw [timerMatchesState_iff] at h ⊢
    rcases enterColdHold_moves (release := True) s.clock s fun _ => trivial with ⟨hs, ht⟩ | ⟨ht, -⟩
    · rw [ht, hs, h]
    · exact ht
  · exact h

/-- Settles O30: a command keeps the state and whether its timer runs, or enters a state with that state's timer. -/
theorem timerMatchesStateKept : Obligations.TimerMatchesStateKept := by
  intro c s t h ht
  have by_move : LivenessMoves (Releases c s) s.live t.live → TimerMatchesState t := by
    rw [timerMatchesState_iff] at h ⊢
    rintro (⟨hs, htm⟩ | ⟨htm, -⟩)
    · rw [htm, hs, h]
    · exact htm
  rcases command_kinds c with hc | hc | rfl | rfl
  · exact by_move (management_moves c s t ht hc)
  · exact by_move (event_moves c s t ht hc)
  · cases ht
    exact autoStart_timerMatchesState _ rfl
  · cases ht
    exact autoStart_timerMatchesState _ rfl

/-! ### Frozen (R179) -/

theorem inBandReset_frozen (s : State) : (inBandReset s).mgmt.frozen = s.mgmt.frozen := by
  simp [inBandReset]

theorem swapTable_mgmt (table : Nat) (s : State) : (swapTable table s).mgmt = s.mgmt := by
  unfold swapTable commitSettings
  split <;> simp [commitRoute, commitKeyMap, commitChord, commitCurveA, commitCurveB, commitProxy, trimBudget]

theorem fireChord_frozen (c : ChordId) (t : Instant) (s : State) : (fireChord c t s).mgmt.frozen = s.mgmt.frozen := by
  unfold fireChord
  dsimp only
  split
  · unfold chordAct chordRestart chordRelease grantPermit
    (repeat' split) <;> simp
  · simp

theorem event_keeps_frozen (c : Instr) (s t : State) (h : s.mgmt.frozen = true) (ht : exec c s = .next t)
    (hc : IsEvent c) : t.mgmt.frozen = true := by
  apply event_cases (fun t => t.mgmt.frozen = true) c s h (t := t) (ht := ht) (hi := hc)
  case hcomp =>
    intro p
    obtain ⟨-, -, frozen, -⟩ := completeFrame_frameMoves p s
    exact frozen.trans h
  case hfh =>
    intro x _ _
    unfold finishHost
    dsimp only
    split <;> simp [inBandReset_frozen, h]
  case hkey =>
    intro raw
    rw [updateChords_mgmt, handOverOutcomes_mgmt,
      scanSample_keeps State.mgmt raw s (fun _ _ => rfl) (fun _ _ _ => rfl) (fun _ _ _ => by simp)]
    exact h
  case hchord => exact fun k _ => (fireChord_frozen k _ s).trans h
  all_goals
    intros
    simp [takeDemand, activateCutoff, completeLearn, startFieldSending, finishField, enterBooting, enterWarned,
      enterPowering, enterColdHold, finishStop, *]

theorem doFeed_mgmt (c : Command) (s : State) : (doFeed c s).state.mgmt = s.mgmt := by
  unfold doFeed
  split
  · split
    · unfold earlyFeed
      dsimp only [done]
      split <;> simp
    · simp [done]
  · simp

theorem doHostPowerOff_mgmt (c : Command) (s : State) : (doHostPowerOff c s).state.mgmt = s.mgmt := by
  unfold doHostPowerOff
  dsimp only
  (repeat' split) <;> simp [done, refuse]

theorem management_keeps_frozen (c : Instr) (s t : State) (h : s.mgmt.frozen = true) (ht : exec c s = .next t)
    (hc : IsManagement c) : t.mgmt.frozen = true := by
  apply management_cases (fun t => t.mgmt.frozen = true) c s (t := t) (ht := ht) (hi := hc)
  case hfeed => exact fun w q => by simp [doFeed_mgmt, h]
  case hoff => exact fun w q => by simp [doHostPowerOff_mgmt, h]
  case hcommit => exact fun w table => by simp [swapTable_mgmt, h]
  case hread =>
    intro w g a b
    unfold clearCounters
    dsimp only
    split <;> exact h
  case hreset =>
    intro w q _
    unfold requestReset
    dsimp only
    split <;> simp [inBandReset_frozen, h]
  all_goals
    intros
    simp [startLearn, startStoreWrite, *]

/-- Settles O46: no command but the two resets writes Frozen, other than to set it. -/
theorem frozenStaysUntilReset : Obligations.FrozenStaysUntilReset := by
  intro c s t ht notPowerOn notLine frozen
  rcases command_kinds c with hc | hc | hc | hc
  · exact management_keeps_frozen c s t frozen ht hc
  · exact event_keeps_frozen c s t frozen ht hc
  · exact absurd hc notPowerOn
  · exact absurd hc notLine

end Sys2Proof.Machine
end

section
/-! SUPPORT. The allocation of on-steps and the interlocks of the heaters: the statements O35 (the table and its
placement) and O56 (the interlocks stand after every command). -/

namespace Sys2Proof.Machine

/-! ### The table of on-steps and its placement (R125, R126) -/

theorem share_le (d total avail : Nat) (h : d ≤ total) : d * avail / total ≤ avail := by
  rcases Nat.eq_zero_or_pos total with h0 | hpos
  · simp [h0]
  · exact Nat.div_le_of_le_mul (Nat.mul_le_mul_right avail h)

theorem allocate_spaced (dB dG g : Nat) (boardFirst : Bool) : (allocate dB dG g boardFirst).Spaced := by
  have glassShare := share_le dG (dB + dG) (100 - 2 * g) (by omega)
  have boardShare := share_le dB (dB + dG) (100 - 2 * g) (by omega)
  unfold allocate Allocation.Spaced
  dsimp only
  generalize dG * (100 - 2 * g) / (dB + dG) = glassPart at glassShare ⊢
  generalize dB * (100 - 2 * g) / (dB + dG) = boardPart at boardShare ⊢
  (repeat' split) <;> dsimp only <;> omega

theorem boardOnAt_iff (a : Allocation) (n : Nat) : boardOnAt a n = true ↔ n < a.onB := by
  simp [boardOnAt]

theorem glassOnAt_iff (a : Allocation) (n : Nat) :
    glassOnAt a n = true ↔ 100 - a.g - a.onG ≤ n ∧ n < 100 - a.g := by
  simp only [glassOnAt, Bool.and_eq_true, decide_eq_true_eq]
  omega

/-- The two heaters never share a step (R126). -/
theorem placement_exclusive {a : Allocation} (h : a.Spaced) (n : Nat) : (boardOnAt a n && glassOnAt a n) = false := by
  rw [Bool.and_eq_false_iff, ← Bool.not_eq_true, ← Bool.not_eq_true, boardOnAt_iff, glassOnAt_iff]
  obtain ⟨board, glass, both⟩ := h
  omega

theorem countP_range_segment (n lo hi : Nat) (p : Nat → Bool) (hp : ∀ k, p k = true ↔ lo ≤ k ∧ k < hi) :
    (List.range n).countP p = min n hi - min n lo := by
  induction n with
  | zero => simp
  | succ n ih =>
    rw [List.range_succ, List.countP_append, ih, List.countP_singleton]
    split
    · rename_i on
      have := (hp n).mp on
      omega
    · rename_i off
      have := mt (hp n).mpr off
      omega

theorem allocate_glass_alone (dG g : Nat) (boardFirst : Bool) (h : dG ≠ 0) :
    allocate 0 dG g boardFirst = ⟨0, min dG (100 - g), g⟩ := by
  rw [allocate, if_neg h, if_pos rfl]

theorem allocate_both (dB dG g : Nat) (boardFirst : Bool) (hB : dB ≠ 0) (hG : dG ≠ 0) :
    allocate dB dG g boardFirst =
      if dB + dG ≤ 100 - 2 * g then ⟨dB, dG, g⟩
      else if boardFirst then
        ⟨100 - 2 * g - dG * (100 - 2 * g) / (dB + dG), dG * (100 - 2 * g) / (dB + dG), g⟩
      else ⟨dB * (100 - 2 * g) / (dB + dG), 100 - 2 * g - dB * (100 - 2 * g) / (dB + dG), g⟩ := by
  rw [allocate, if_neg hG, if_neg hB]

theorem allocate_gap (dB dG g : Nat) (boardFirst : Bool) : (allocate dB dG g boardFirst).g = g := by
  unfold allocate
  dsimp only
  (repeat' split) <;> rfl

/-- Settles O35. -/
theorem allocationRule : Obligations.AllocationRule := by
  refine ⟨fun dB dG g boardFirst => ?_, fun a n m h => ?_, fun a n => ⟨boardOnAt_iff a n, glassOnAt_iff a n⟩,
    fun a h => ?_⟩
  · dsimp only
    refine ⟨allocate_gap .., allocate_spaced .., ?_, ?_, ?_, ?_, ?_, ?_⟩
    · rintro rfl rfl
      exact ⟨Nat.zero_min _, rfl⟩
    · rintro - rfl
      exact ⟨rfl, rfl⟩
    · rintro rfl hG
      rw [allocate_glass_alone _ _ _ hG]
      exact ⟨rfl, rfl⟩
    · intro hB hG fits
      rw [allocate_both _ _ _ _ hB hG, if_pos fits]
      exact ⟨rfl, rfl⟩
    · intro hB hG exceeds first
      rw [allocate_both _ _ _ _ hB hG, if_neg (Nat.not_le.mpr exceeds), if_pos first]
      exact ⟨rfl, Nat.sub_add_cancel (share_le dG _ _ (Nat.le_add_left ..))⟩
    · intro hB hG exceeds first
      rw [allocate_both _ _ _ _ hB hG, if_neg (Nat.not_le.mpr exceeds), if_neg (by rw [first]; nofun)]
      exact ⟨rfl, Nat.add_sub_cancel' (share_le dB _ _ (Nat.le_add_right ..))⟩
  · obtain ⟨board, glass, both⟩ := id h
    refine ⟨placement_exclusive h n, fun last => ?_, ?_⟩
    · rw [← Bool.not_eq_true, ← Bool.not_eq_true, boardOnAt_iff, glassOnAt_iff]
      omega
    · rw [boardOnAt_iff, glassOnAt_iff]
      omega
  · obtain ⟨board, glass, -⟩ := h
    rw [countP_range_segment 100 0 a.onB _ fun k => by rw [boardOnAt_iff]; omega,
      countP_range_segment 100 _ _ _ (glassOnAt_iff a)]
    omega

/-! ### The interlocks by their parts (R123, R124, R126, R128) -/

/-- The interlocks that the heaters keep by themselves, whatever the supply allows. -/
def Interlocked (h : HeatDrive) : Prop :=
  (h.board.output && h.glass.output) = false ∧
  (h.cutoffLine = true → h.cutoffMarks = true) ∧
  (h.cutoffMarks = true → HeaterIdle h.board h.current.onB ∧ HeaterIdle h.glass h.current.onG) ∧
  (h.board.blocked = true → HeaterIdle h.board h.current.onB) ∧
  (h.glass.blocked = true → HeaterIdle h.glass h.current.onG) ∧
  h.current.Spaced ∧ h.pending.Spaced

theorem heatersSafe_iff (s : State) :
    HeatersSafe s ↔ Interlocked s.heat ∧
      ∀ c, heaterAllowed s c = false → (s.heat.channel c).blocked = true := by
  constructor
  · rintro ⟨h1, h2, h3, h4, h5, board, glass, h8, h9⟩
    exact ⟨⟨h1, h2, h3, h4, h5, h8, h9⟩, fun c => by cases c <;> assumption⟩
  · rintro ⟨⟨h1, h2, h3, h4, h5, h8, h9⟩, blocked⟩
    exact ⟨h1, h2, h3, h4, h5, blocked .board, blocked .glass, h8, h9⟩

/-- The same heaters under a supply that allows no less. -/
theorem HeatersSafe.of_allowed {s t : State} (h : HeatersSafe s) (heat : t.heat = s.heat)
    (allowed : ∀ c, heaterAllowed s c = true → heaterAllowed t c = true) : HeatersSafe t := by
  rw [heatersSafe_iff] at h ⊢
  rw [heat]
  refine ⟨h.1, fun c hc => h.2 c ?_⟩
  rw [← Bool.not_eq_true] at hc ⊢
  exact mt (allowed c) hc

theorem heaterAllowed_congr {s t : State} (live : t.live.state.isPowered = s.live.state.isPowered)
    (set : t.tables.settings.live = s.tables.settings.live) (c : Heater) : heaterAllowed t c = heaterAllowed s c := by
  unfold heaterAllowed hostPowerEnable settings
  rw [live, set]

theorem HeatersSafe.of_same {s t : State} (h : HeatersSafe s) (heat : t.heat = s.heat)
    (live : t.live.state = s.live.state) (set : t.tables.settings.live = s.tables.settings.live) : HeatersSafe t :=
  h.of_allowed heat fun c hc => by rwa [heaterAllowed_congr (congrArg _ live) set]

theorem HeatersSafe.of_unpowered {t : State} (h : Interlocked t.heat) (off : hostPowerEnable t = false) :
    HeatersSafe t :=
  (heatersSafe_iff t).mpr ⟨h, fun c hc => by simp [heaterAllowed, off] at hc⟩

/-- A channel may be blocked (R124). -/
theorem Interlocked.block {h : HeatDrive} (hs : Interlocked h) (c : Heater) :
    Interlocked { h.setChannel c { h.channel c with blocked := true, output := false } with
      current := h.current.clear c } := by
  obtain ⟨apart, line, marks, board, glass, ⟨hB, hG, gaps⟩, pending⟩ := hs
  cases c
  · exact ⟨rfl, line, fun m => ⟨⟨rfl, rfl⟩, (marks m).2⟩, fun _ => ⟨rfl, rfl⟩, glass,
      ⟨Nat.zero_le _, hG, .inl rfl⟩, pending⟩
  · exact ⟨Bool.and_false _, line, fun m => ⟨(marks m).1, ⟨rfl, rfl⟩⟩, board, fun _ => ⟨rfl, rfl⟩,
      ⟨hB, Nat.zero_le _, .inr (.inl rfl)⟩, pending⟩

/-- Where every channel not allowed has been blocked, the heaters are inside their interlocks. -/
theorem BlocksNotAllowed.safe {s t : State} (h : BlocksNotAllowed s t) (hs : Interlocked s.heat) : HeatersSafe t := by
  obtain ⟨heat, -⟩ := h
  dsimp only at heat
  rw [heatersSafe_iff]
  constructor
  · rw [heat]
    by_cases board : (!heaterAllowed t .board && !(s.heat.channel .board).blocked) = true <;>
      by_cases glass : (!heaterAllowed t .glass && !(s.heat.channel .glass).blocked) = true <;>
      simp only [board, glass, if_true, Bool.false_eq_true, if_false]
    exacts [(hs.block .board).block .glass, hs.block .board, hs.block .glass, hs]
  · intro c hc
    rw [heat]
    cases hb : (s.heat.channel c).blocked <;> cases c <;> simp_all [HeatDrive.channel]

/-! ### The heaters' own events (R119 to R129) -/

/-- The steps of an installed allocation fit the interlocks: none under the marks, none for a Blocked channel. -/
structure StepsAllowed (h : HeatDrive) : Prop where
  line : h.cutoffLine = true → h.cutoffMarks = true
  marks : h.cutoffMarks = true → h.current.onB = 0 ∧ h.current.onG = 0
  board : h.board.blocked = true → h.current.onB = 0
  glass : h.glass.blocked = true → h.current.onG = 0
  current : h.current.Spaced
  pending : h.pending.Spaced

theorem Interlocked.steps {h : HeatDrive} (hs : Interlocked h) : StepsAllowed h := by
  obtain ⟨-, line, marks, board, glass, current, pending⟩ := hs
  exact ⟨line, fun m => ⟨(marks m).1.2, (marks m).2.2⟩, fun b => (board b).2, fun b => (glass b).2, current, pending⟩

theorem boardOnAt_zero {a : Allocation} (h : a.onB = 0) (n : Nat) : boardOnAt a n = false := by
  rw [← Bool.not_eq_true, boardOnAt_iff]
  omega

theorem glassOnAt_zero {a : Allocation} (h : a.onG = 0) (n : Nat) : glassOnAt a n = false := by
  rw [← Bool.not_eq_true, glassOnAt_iff]
  omega

/-- The outputs placed for any step are inside the interlocks (R126). -/
theorem StepsAllowed.place {h : HeatDrive} (hs : StepsAllowed h) (n : Nat) : Interlocked (placeOutputs n h) := by
  obtain ⟨line, marks, board, glass, current, pending⟩ := hs
  have boardIdle : h.current.onB = 0 → HeaterIdle (placeOutputs n h).board h.current.onB :=
    fun h0 => ⟨boardOnAt_zero h0 n, h0⟩
  have glassIdle : h.current.onG = 0 → HeaterIdle (placeOutputs n h).glass h.current.onG :=
    fun h0 => ⟨glassOnAt_zero h0 n, h0⟩
  exact ⟨placement_exclusive current n, line, fun m => ⟨boardIdle (marks m).1, glassIdle (marks m).2⟩,
    fun b => boardIdle (board b), fun b => glassIdle (glass b), current, pending⟩

theorem installed_spaced {h : HeatDrive} (hs : h.pending.Spaced) : (installed h).Spaced := by
  obtain ⟨hB, hG, gaps⟩ := hs
  unfold installed Allocation.Spaced
  dsimp only
  split <;> split <;> omega

/-- What a boundary installs fits the interlocks (R127, R128). -/
theorem stepsAllowed_installed {h : HeatDrive} (hs : h.pending.Spaced)
    (line : h.cutoffLine = true → h.cutoffMarks = true) :
    StepsAllowed { h with current := installed h } where
  line := line
  marks m := by simp_all [installed]
  board b := by simp_all [installed]
  glass b := by simp_all [installed]
  current := installed_spaced hs
  pending := hs

theorem unblock_heat (c : Heater) (s : State) : (unblock c s).heat =
    s.heat.setChannel c { s.heat.channel c with blocked := (s.heat.channel c).blocked && !heaterAllowed s c } := by
  unfold unblock
  split
  · rename_i h
    simp [h]
  · rename_i h
    cases c <;> simp [Bool.not_eq_true _ ▸ h, HeatDrive.setChannel, HeatDrive.channel]

/-- The heaters after a boundary: marks cleared where they may be, the pending steps installed, step 0 begun
(R119, R124, R127, R129). -/
theorem heaterBoundary_heat (s : State) : (heaterBoundary s).heat =
    (let h : HeatDrive := { s.heat with
      board := { s.heat.board with blocked := s.heat.board.blocked && !heaterAllowed s .board }
      glass := { s.heat.glass with blocked := s.heat.glass.blocked && !heaterAllowed s .glass }
      cutoffMarks := s.heat.cutoffMarks && s.heat.cutoffLine
      periodStart := s.heat.periodStart + 1000
      demandTaken := false }
    placeOutputs 0 { h with current := installed h }) := by
  have allowed : heaterAllowed (unblock .board s) .glass = heaterAllowed s .glass :=
    heaterAllowed_congr (by simp) (by simp) .glass
  simp only [heaterBoundary, unblock_heat, allowed]
  rfl

theorem HeatersSafe.after_boundary {s : State} (h : HeatersSafe s) : HeatersSafe (heaterBoundary s) := by
  rw [heatersSafe_iff] at h
  obtain ⟨⟨-, line, -, -, -, -, pending⟩, blocked⟩ := h
  have allowed : ∀ c, heaterAllowed (heaterBoundary s) c = heaterAllowed s c :=
    heaterAllowed_congr (by simp) (by simp)
  rw [heatersSafe_iff, heaterBoundary_heat]
  refine ⟨StepsAllowed.place (stepsAllowed_installed ?_ ?_) 0, fun c hc => ?_⟩
  · exact pending
  · intro l
    exact Bool.and_eq_true_iff.mpr ⟨line l, l⟩
  · rw [allowed] at hc
    have was := blocked c hc
    cases c <;> simp_all [HeatDrive.channel, placeOutputs]

theorem HeatersSafe.after_demand {s : State} (h : HeatersSafe s) : HeatersSafe (takeDemand s) := by
  rw [heatersSafe_iff] at h ⊢
  obtain ⟨⟨apart, line, marks, board, glass, current, -⟩, blocked⟩ := h
  exact ⟨⟨apart, line, marks, board, glass, current, allocate_spaced ..⟩, fun c hc => by cases c <;> exact blocked _ hc⟩

theorem HeatersSafe.after_step {s : State} (h : HeatersSafe s) (n : Nat) :
    HeatersSafe { s with heat := placeOutputs n s.heat } := by
  rw [heatersSafe_iff] at h ⊢
  exact ⟨h.1.steps.place n, fun c hc => by cases c <;> exact h.2 _ hc⟩

theorem HeatersSafe.after_cutoff {s : State} (h : HeatersSafe s) : HeatersSafe (activateCutoff s) := by
  rw [heatersSafe_iff] at h ⊢
  obtain ⟨⟨-, -, -, -, -, -, pending⟩, blocked⟩ := h
  refine ⟨⟨rfl, fun _ => rfl, fun _ => ⟨⟨rfl, rfl⟩, ⟨rfl, rfl⟩⟩, fun _ => ⟨rfl, rfl⟩, fun _ => ⟨rfl, rfl⟩,
    ⟨Nat.zero_le _, Nat.zero_le _, .inl rfl⟩, pending⟩, fun c hc => by cases c <;> exact blocked _ hc⟩

theorem HeatersSafe.after_release {s : State} (h : HeatersSafe s) :
    HeatersSafe { s with heat.cutoffLine := false } := by
  obtain ⟨apart, -, rest⟩ := h
  exact ⟨apart, nofun, rest⟩

/-! ### Changes of liveness (R76, R124) -/

theorem HeatersSafe.after_enter {s : State} (h : HeatersSafe s) (st : Liveness) (tm : Option Timer) (t : Instant) :
    HeatersSafe (enterState st tm t s) := by
  have power := enterState_powerHandOver (s := s) (v := s) st tm t rfl rfl rfl
  unfold PowerHandOver at power
  split at power
  · exact power.safe ((heatersSafe_iff s).mp h).1
  · rename_i noRise
    refine h.of_allowed power.1 fun c hc => ?_
    cases off : hostPowerEnable (enterState st tm t s)
    · simp [heaterAllowed, off]
    · have on : hostPowerEnable s = true := by
        by_contra hs
        exact noRise ⟨Bool.not_eq_true _ ▸ hs, off⟩
      rwa [heaterAllowed_congr (off.trans on.symm) (by simp)]

/-! ### A property that every move of liveness keeps -/

/-- A property that the state changes of liveness keep, and that reads of the Liveness Controller its state alone, and
nothing of its log, of the temperatures or of the counters. -/
structure MoveKept (P : State → Prop) : Prop where
  enter : ∀ st tm t u, P u → P (enterState st tm t u)
  live : ∀ (u : State) (l : LivenessController), l.state = u.live.state → P u → P { u with live := l }
  log : ∀ (u : State) l, P u → P { u with log := l }
  temp : ∀ (u : State) m, P u → P { u with temp := m }
  count : ∀ id n u, P u → P (bumpBy id n u)

section
variable {P : State → Prop} (K : MoveKept P)
include K

theorem MoveKept.leaveColdHold (t : Instant) (u : State) (h : P u) : P (leaveColdHold t u) := by
  unfold Machine.leaveColdHold
  split
  · exact K.enter _ _ _ _ h
  · exact h

theorem MoveKept.enterColdHold (t : Instant) (u : State) (h : P u) : P (enterColdHold t u) :=
  K.leaveColdHold t _ (K.temp _ _ (K.enter _ _ _ _ h))

theorem MoveKept.enterBooting (t : Instant) (u : State) (h : P u) : P (enterBooting t u) :=
  K.live _ _ rfl (K.enter _ _ _ _ h)

theorem MoveKept.countedRestart (c : RestartCause) (t : Instant) (u : State) (h : P u) : P (countedRestart c t u) := by
  have aged : P (ageBudget t u) := K.count _ _ _ (K.live u _ rfl h)
  unfold Machine.countedRestart
  dsimp only
  generalize ageBudget t u = v at aged ⊢
  split
  · exact K.count _ _ _ (K.enter _ _ _ _ (K.log v _ aged))
  · unfold makeRestart
    dsimp only
    generalize hw : bump Ctr.livenessCountedRestarts _ = w
    have charged : P w := hw ▸ K.count _ _ _ (K.live v _ rfl aged)
    split
    · exact K.enter _ _ _ _ (K.log w _ charged)
    · exact K.enter _ _ _ _ (K.log w _ charged)

theorem MoveKept.uncountedRestart (c : RestartCause) (cycle : Bool) (t : Instant) (u : State) (h : P u) :
    P (uncountedRestart c cycle t u) := by
  have counted : P (bump Ctr.livenessUncountedRestarts u) := K.count _ _ _ h
  unfold Machine.uncountedRestart
  dsimp only
  generalize bump Ctr.livenessUncountedRestarts u = v at counted ⊢
  split
  · exact K.enter _ _ _ _ (K.log v _ counted)
  · exact K.enter _ _ _ _ (K.log v _ counted)

theorem MoveKept.finishStop (t : Instant) (u : State) (h : P u) : P (finishStop t u) :=
  K.enter _ _ _ _ (K.log u _ h)

theorem MoveKept.startStop (delay : Nat) (t : Instant) (u : State) (h : P u) : P (startStop delay t u) := by
  have entered : ∀ tm : Timer, P (if u.live.state == .stopping then { u with live.timer := tm }
      else enterState .stopping (some tm) t u) := by
    intro tm
    split
    · exact K.live u _ rfl h
    · exact K.enter _ _ _ _ h
  unfold Machine.startStop
  dsimp only
  split
  · exact K.finishStop t _ (entered _)
  · exact entered _

theorem MoveKept.releaseHost (t : Instant) (u : State) (h : P u) : P (releaseHost t u) := by
  unfold Machine.releaseHost
  split
  · exact K.enterColdHold t _ h
  · exact K.enterColdHold t _ (K.live u _ rfl h)
  · exact h

theorem MoveKept.handOverThermal (before : State) (t : Instant) (u : State) (h : P u) :
    P (handOverThermal before t u) := by
  have hot : P (if (u.temp.hot && !before.temp.hot) = true then hotRaised t u
      else if (before.temp.hot && !u.temp.hot) = true then hotCleared t u else u) := by
    unfold hotRaised hotCleared
    (repeat' split) <;> first
      | exact h
      | exact K.enterColdHold t _ h
      | exact K.leaveColdHold t _ h
      | exact K.count _ _ _ (K.enter _ _ _ _ (K.log u _ h))
  unfold Machine.handOverThermal
  dsimp only
  generalize (if (u.temp.hot && !before.temp.hot) = true then hotRaised t u
      else if (before.temp.hot && !u.temp.hot) = true then hotCleared t u else u) = v at hot ⊢
  split
  · exact K.leaveColdHold t _ hot
  · exact hot

theorem MoveKept.earlyFeed (t : Instant) (u : State) (h : P u) : P (earlyFeed t u) := by
  unfold Machine.earlyFeed
  dsimp only
  generalize hv : bump Ctr.livenessEarlyFeeds _ = v
  have counted : P v := hv ▸ K.count _ _ _ (K.live u _ rfl h)
  split
  · exact K.countedRestart _ _ _ (K.live v _ rfl counted)
  · exact counted

theorem MoveKept.doHostPowerOff (c : Command) (u : State) (h : P u) : P (doHostPowerOff c u).state := by
  unfold Machine.doHostPowerOff
  dsimp only
  (repeat' split) <;> first
    | exact h
    | exact K.startStop _ _ _ h
    | exact K.enter _ _ _ _ h

/-- What a chord's action does beside moving liveness: the permit and the flags. -/
theorem MoveKept.chordAct (mgmt : ∀ (u : State) p, P u → P { u with mgmt.permit := p })
    (flags : ∀ (u : State) f, P u → P { u with flags := f })
    (e : ChordEntry) (t : Instant) (u : State) (h : P u) : P (chordAct e t u) := by
  unfold Machine.chordAct chordRestart chordRelease
  (repeat' split) <;> first
    | exact h
    | exact K.uncountedRestart _ _ _ _ h
    | exact K.releaseHost _ _ h
    | exact K.count _ _ _ h
    | exact mgmt u _ h
    | exact flags u _ h

end

theorem heatersSafe_moveKept : MoveKept HeatersSafe where
  enter st tm t _ h := h.after_enter st tm t
  live _ _ state h := h.of_same rfl state rfl
  log _ _ h := h
  temp _ _ h := h
  count _ _ _ h := h

theorem HeatersSafe.after_fireChord {s : State} (h : HeatersSafe s) (c : ChordId) (t : Instant) :
    HeatersSafe (fireChord c t s) := by
  unfold fireChord
  dsimp only
  generalize hu : composeNotice topicChord _ (setChord c .fired s) = u
  have noted : HeatersSafe u := hu ▸ h.of_same (by simp) (by simp) (by simp)
  split
  · exact heatersSafe_moveKept.chordAct (fun _ _ h => h) (fun _ _ h => h) _ t (bump Ctr.keysChordActionsTaken u) noted
  · exact noted

/-! ### Settings that change the supply (R123, R124, R138) -/

theorem HeatersSafe.after_blockNotAllowed {s : State} (h : Interlocked s.heat) : HeatersSafe (blockNotAllowed s) :=
  (blockNotAllowed_spec s).safe h

theorem HeatersSafe.after_swapTable {s : State} (h : HeatersSafe s) (table : Nat) :
    HeatersSafe (swapTable table s) := by
  unfold swapTable
  split
  case h_6 => exact .after_blockNotAllowed ((heatersSafe_iff s).mp h).1
  case h_7 => exact h.of_same (by simp [commitProxy]) (by simp [commitProxy]) (by simp [commitProxy])
  all_goals exact h

/-- A learned baseline changes no setting of the supply. -/
theorem HeatersSafe.after_completeLearn {s : State} (h : HeatersSafe s) (d : Int) :
    HeatersSafe (completeLearn d s) := by
  refine h.of_allowed rfl fun c hc => ?_
  have supply : ∀ t : SettingsTable, ∀ x, (learnedInto x t).hostLoad = t.hostLoad ∧
      (learnedInto x t).supplyCap = t.supplyCap ∧ heaterLoad (learnedInto x t) c = heaterLoad t c := by
    intro t x
    cases c <;> simp [learnedInto, SettingsTable.hostLoad, SettingsTable.supplyCap, heaterLoad,
      SettingsTable.boardLoad, SettingsTable.glassLoad]
  obtain ⟨host, cap, load⟩ := supply (settings s) (clampInt (-1000) 1000 d)
  unfold heaterAllowed at hc ⊢
  rw [show settings (completeLearn d s) = learnedInto (clampInt (-1000) 1000 d) (settings s) from rfl, host, cap, load]
  exact hc

theorem HeatersSafe.after_inBandReset {s : State} (h : HeatersSafe s) : HeatersSafe (inBandReset s) := by
  unfold inBandReset
  dsimp only
  refine .after_blockNotAllowed ?_
  simpa using ((heatersSafe_iff s).mp h).1

theorem HeatersSafe.initialState (log : RestartLog) (s : State) : HeatersSafe (Machine.initialState log s) :=
  .of_unpowered ⟨rfl, id, fun _ => ⟨⟨rfl, rfl⟩, ⟨rfl, rfl⟩⟩, fun _ => ⟨rfl, rfl⟩, fun _ => ⟨rfl, rfl⟩,
    ⟨Nat.zero_le _, Nat.zero_le _, .inl rfl⟩, ⟨Nat.zero_le _, Nat.zero_le _, .inl rfl⟩⟩ rfl

theorem HeatersSafe.after_autoStart {s : State} (h : HeatersSafe s) : HeatersSafe (autoStart s) := by
  unfold autoStart
  split
  · exact heatersSafe_moveKept.enterColdHold _ _ h
  · exact h

/-! ### Every command -/

theorem HeatersSafe.after_frame {s t : State} (h : HeatersSafe s) (moves : FrameMoves s t) : HeatersSafe t := by
  obtain ⟨heat, set, -, live⟩ := moves
  refine h.of_allowed heat fun c hc => ?_
  have power : t.live.state.isPowered = s.live.state.isPowered := by
    rcases live with ⟨same, -⟩ | ⟨heard, running, -⟩
    · rw [same]
    · rw [running]
      revert heard
      cases s.live.state <;> simp [Liveness.hears, Liveness.isPowered]
  rwa [heaterAllowed_congr power (by rw [set])]

theorem event_keeps_heatersSafe (c : Instr) (s t : State) (h : HeatersSafe s) (ht : exec c s = .next t)
    (hc : IsEvent c) : HeatersSafe t := by
  apply event_cases HeatersSafe c s h (t := t) (ht := ht) (hi := hc)
  case hchar => exact fun p e u hu => hu.of_same (by simp) (by simp) (by simp)
  case hcomp => exact fun p => h.after_frame (completeFrame_frameMoves p s)
  case hfield =>
    exact fun i rest _ _ => h.of_same (by simp [startFieldSending]) (by simp [startFieldSending])
      (by simp [startFieldSending])
  case hfh =>
    intro x _ _
    have released : HeatersSafe (releaseBuffer x.buffer (bump (Ctr.framesSent .host)
        { s with hostPort.sending := none })) := h.of_same (by simp) (by simp) (by simp)
    unfold finishHost
    dsimp only
    split
    · exact released.after_inBandReset
    · exact released
  case hff =>
    exact fun x _ _ => h.of_same (by simp [finishField]) (by simp [finishField]) (by simp [finishField])
  case hboot => exact fun _ => heatersSafe_moveKept.enterBooting _ _ h
  case hcr => exact fun cause _ => heatersSafe_moveKept.countedRestart _ _ _ h
  case hwarn =>
    intro _
    have entered := h.after_enter .warned (some (startTimer s.clock (settings s).warnGrace.toNat)) s.clock
    exact entered.of_same (by simp [enterWarned]) (by simp [enterWarned]) (by simp [enterWarned])
  case hpow => exact fun _ => h.after_enter ..
  case hcold => exact fun _ => heatersSafe_moveKept.enterColdHold _ _ h
  case hstop => exact fun _ => heatersSafe_moveKept.finishStop _ _ h
  case htemp =>
    intro b g a
    refine heatersSafe_moveKept.handOverThermal _ _ _ (h.of_same ?_ ?_ ?_) <;> simp
  case hdwell => exact heatersSafe_moveKept.leaveColdHold _ (setReadiness .ready none s) h
  case hdem => exact h.after_demand
  case hbound => exact h.after_boundary.of_same (by simp) (by simp) (by simp)
  case hact => exact h.after_cutoff
  case hrel => exact h.after_release
  case hlearn => exact fun d => h.after_completeLearn d
  case hkey =>
    intro raw
    have scanned : ∀ {β : Type} (g : State → β), (∀ u (k : Keypad), g { u with keypad := k } = g u) →
        (∀ id n u, g (bumpBy id n u) = g u) → (∀ p h u, g (reportHappening p h u) = g u) →
        g (scanSample raw (nextKeypadSample s)).1 = g s := fun g => scanSample_keeps g raw s
    refine h.of_same ?_ ?_ ?_ <;> simp only [updateChords_heat, handOverOutcomes_heat, updateChords_live,
      handOverOutcomes_live, updateChords_tables, handOverOutcomes_tables]
    · exact scanned State.heat (fun _ _ => rfl) (fun _ _ _ => rfl) fun _ _ _ => by simp
    · rw [scanned State.live (fun _ _ => rfl) (fun _ _ _ => rfl) fun _ _ _ => by simp]
    · rw [scanned State.tables (fun _ _ => rfl) (fun _ _ _ => rfl) fun _ _ _ => by simp]
  case hchord => exact fun k _ => h.after_fireChord ..
  case hstep => exact h.after_step
  all_goals
    intros
    exact h.of_same (by simp) (by simp) (by simp)

theorem HeatersSafe.after_doFeed {s : State} (h : HeatersSafe s) (c : Command) : HeatersSafe (doFeed c s).state := by
  unfold doFeed
  split
  · rename_i heard
    split
    · exact heatersSafe_moveKept.earlyFeed _ _ h
    · exact h.after_frame (acceptHeartbeat_frameMoves c.arrival s heard)
  · exact h

theorem management_keeps_heatersSafe (c : Instr) (s t : State) (h : HeatersSafe s) (ht : exec c s = .next t)
    (hc : IsManagement c) : HeatersSafe t := by
  have taken : ∀ w, HeatersSafe { s with mgmt.waiting := w } := fun w => h
  apply management_cases HeatersSafe c s (t := t) (ht := ht) (hi := hc)
  case hreply => exact fun code q r d u hu => hu.of_same (by simp) (by simp) (by simp)
  case hread =>
    intro w g a b
    unfold clearCounters
    dsimp only
    split <;> exact h
  case htab =>
    rintro w tb (⟨table, index, bytes, clamped, e⟩ | ⟨table, e⟩)
    · rcases writeStaging_settings e with e | ⟨i, x, e⟩ <;> exact h.of_same rfl rfl (by rw [e])
    · rcases discardStaging_settings e with e | e
      exacts [h.of_same rfl rfl (by rw [e]), h.of_same rfl rfl (by rw [e]; rfl)]
  case hcommit => exact fun w table => (taken w).after_swapTable table
  case hstore => exact fun table u hu => hu
  case hfeed => exact fun w q => (taken w).after_doFeed q
  case hrestart => exact fun w cycle now _ => heatersSafe_moveKept.uncountedRestart _ _ _ _ (taken w)
  case hoff => exact fun w q => heatersSafe_moveKept.doHostPowerOff q _ (taken w)
  case hrel => exact fun w now _ _ => heatersSafe_moveKept.releaseHost _ _ (taken w)
  case hreset =>
    intro w q _
    have replied : HeatersSafe (replyTo 0x11 q .done [] { s with mgmt.waiting := w }) :=
      (taken w).of_same (by simp) (by simp) (by simp)
    unfold requestReset
    dsimp only
    split
    · exact replied
    · exact replied.after_inBandReset
  all_goals
    intros
    exact h

/-- Settles O56: each part of a command keeps the interlocks, and host power coming on or a changed supply blocks what
is not allowed. -/
theorem heatersSafeKept : Obligations.HeatersSafeKept := by
  intro c s t h ht
  rcases command_kinds c with hc | hc | rfl | rfl
  · exact management_keeps_heatersSafe c s t h ht hc
  · exact event_keeps_heatersSafe c s t h ht hc
  · cases ht
    exact (HeatersSafe.initialState {} s).after_autoStart
  · cases ht
    exact (HeatersSafe.initialState _ s).after_autoStart

end Sys2Proof.Machine
end

section
/-! SUPPORT. The accounting of the Frame Pool: the buffers in their places and those in hand, operation by operation,
and with it the statement O59. -/

namespace Sys2Proof.Machine

/-! ### A pool whose buffers stand in places (R15, R16) -/

/-- No buffer stands in two places, each is in the state of its place, none of which is Free, and every other buffer is
Free. -/
def Accounts (places : List (BufferId × BufferState)) (pool : Vector Buffer 24) : Prop :=
  (places.map Prod.fst).Nodup ∧ (∀ x ∈ places, x.2 ≠ .free ∧ pool[x.1].state = x.2) ∧
  ∀ b : BufferId, b ∉ places.map Prod.fst → pool[b].state = .free

theorem Accounts.perm {l l' : List (BufferId × BufferState)} {pool : Vector Buffer 24} (h : Accounts l pool)
    (p : l.Perm l') : Accounts l' pool := by
  obtain ⟨nodup, held, free⟩ := h
  exact ⟨((p.map _).nodup_iff).mp nodup, fun x hx => held x (p.mem_iff.mpr hx),
    fun b hb => free b (mt (p.map Prod.fst).mem_iff.mp hb)⟩

theorem pool_get_set (pool : Vector Buffer 24) (b c : BufferId) (f : Buffer) :
    (pool.set b f)[c] = if c = b then f else pool[c] := by
  simp [Vector.getElem_set, Fin.ext_iff, eq_comm]

/-- A buffer taken out of its place and made Free. -/
theorem Accounts.release {b : BufferId} {st : BufferState} {l : List (BufferId × BufferState)}
    {pool : Vector Buffer 24} (h : Accounts ((b, st) :: l) pool) (f : Buffer) (hf : f.state = .free) :
    Accounts l (pool.set b f) := by
  obtain ⟨nodup, held, free⟩ := h
  rw [List.map_cons, List.nodup_cons] at nodup
  refine ⟨nodup.2, fun x hx => ?_, fun c hc => ?_⟩
  · have other : x.1 ≠ b := fun e => nodup.1 (List.mem_map.mpr ⟨x, hx, e⟩)
    rw [pool_get_set, if_neg other]
    exact held x (List.mem_cons_of_mem _ hx)
  · rw [pool_get_set]
    split
    · exact hf
    · rename_i other
      exact free c (by simpa [other] using hc)

/-- A Free buffer taken into a place. -/
theorem Accounts.claim {b : BufferId} {st : BufferState} {l : List (BufferId × BufferState)}
    {pool : Vector Buffer 24} (h : Accounts l pool) (hb : pool[b].state = .free) (f : Buffer) (hf : f.state = st)
    (hst : st ≠ .free) : Accounts ((b, st) :: l) (pool.set b f) := by
  obtain ⟨nodup, held, free⟩ := h
  have absent : b ∉ l.map Prod.fst := by
    intro hmem
    obtain ⟨x, hx, rfl⟩ := List.mem_map.mp hmem
    obtain ⟨notFree, state⟩ := held x hx
    exact notFree (state.symm.trans hb)
  refine ⟨List.nodup_cons.mpr ⟨absent, nodup⟩, fun x hx => ?_, fun c hc => ?_⟩
  · rw [pool_get_set]
    rcases List.mem_cons.mp hx with rfl | hx
    · rw [if_pos rfl]
      exact ⟨hst, hf⟩
    · rw [if_neg fun e => absent (List.mem_map.mpr ⟨x, hx, e⟩)]
      exact held x hx
  · rw [List.map_cons, List.mem_cons, not_or] at hc
    rw [pool_get_set, if_neg hc.1]
    exact free c hc.2

/-- A buffer moved to another place, or written where it is. -/
theorem Accounts.move {b : BufferId} {st st' : BufferState} {l : List (BufferId × BufferState)}
    {pool : Vector Buffer 24} (h : Accounts ((b, st) :: l) pool) (f : Buffer) (hf : f.state = st')
    (hst : st' ≠ .free) : Accounts ((b, st') :: l) (pool.set b f) := by
  have freed := (h.release {} rfl).claim (by rw [pool_get_set, if_pos rfl]) f hf hst
  rwa [Vector.set_set] at freed

/-! ### The places, as they change -/

theorem heldBuffers_notFree (s : State) {x : BufferId × BufferState} (h : x ∈ heldBuffers s) : x.2 ≠ .free := by
  simp only [heldBuffers, List.mem_append, List.mem_map, or_assoc] at h
  rcases h with ⟨_, _, rfl⟩ | ⟨_, _, rfl⟩ | ⟨_, _, rfl⟩ | ⟨_, _, rfl⟩ | ⟨_, _, rfl⟩ | ⟨_, _, rfl⟩ | ⟨_, _, rfl⟩ <;>
    nofun

theorem heldBuffers_congr {s t : State} (host : t.hostPort = s.hostPort) (field : t.fieldPort = s.fieldPort)
    (waiting : t.mgmt.waiting = s.mgmt.waiting) : heldBuffers t = heldBuffers s := by
  unfold heldBuffers
  rw [host, field, waiting]

/-- The assemblers. -/
theorem heldBuffers_setRx (p : Port) (r : Receiver) (s : State) :
    ((s.rx p).filling.map (·, BufferState.filling) ++ heldBuffers (setRx p r s)).Perm
      (r.filling.map (·, .filling) ++ heldBuffers s) := by
  rw [List.perm_iff_count]
  intro x
  cases p <;> simp [heldBuffers, setRx, State.rx, List.count_append] <;> omega

/-- The command frames at the Management Unit. -/
theorem heldBuffers_setMgmt (m : Management) (s : State) :
    (s.mgmt.waiting.map (·, BufferState.working) ++ heldBuffers { s with mgmt := m }).Perm
      (m.waiting.map (·, .working) ++ heldBuffers s) := by
  rw [List.perm_iff_count]
  intro x
  simp only [heldBuffers, List.count_append]
  omega

/-- The places of the Host Port's transmit side. -/
def HostPort.outgoing (h : HostPort) : List (BufferId × BufferState) :=
  h.queue.map (·, .queued) ++ h.sending.toList.map fun x => (x.buffer, .sending)

/-- The places of the Field Port's transmit side. -/
def FieldPort.outgoing (f : FieldPort) : List (BufferId × BufferState) :=
  (f.queue.filterMap FieldItem.held).map (·, .queued) ++
    (f.sending.toList.filterMap fun x => x.item.held).map (·, .sending)

theorem heldBuffers_setHostPort (h : HostPort) (s : State) (rx : h.rx.filling = s.hostPort.rx.filling) :
    (s.hostPort.outgoing ++ heldBuffers { s with hostPort := h }).Perm (h.outgoing ++ heldBuffers s) := by
  rw [List.perm_iff_count]
  intro x
  simp only [heldBuffers, HostPort.outgoing, rx, List.count_append]
  omega

theorem heldBuffers_setFieldPort (f : FieldPort) (s : State) (rx : f.rx.filling = s.fieldPort.rx.filling) :
    (s.fieldPort.outgoing ++ heldBuffers { s with fieldPort := f }).Perm (f.outgoing ++ heldBuffers s) := by
  rw [List.perm_iff_count]
  intro x
  simp only [heldBuffers, FieldPort.outgoing, rx, List.count_append]
  omega

/-- What a state holds before and after a change of one place, the parts `a` and `c` of that place being taken out on
either side. -/
theorem perm_exchange {α : Type} {a b c l l' : List α} (h : (a ++ l').Perm (b ++ l)) (hb : b.Perm (a ++ c)) :
    l'.Perm (c ++ l) := by
  refine (List.perm_append_left_iff a).mp (h.trans ?_)
  rw [← List.append_assoc]
  exact hb.append_right l

/-! ### Buffers in hand -/

/-- The pool is accounted for with the buffers of `hand` on their way between two places, and the Field Port receives
and sends as in `f`. -/
structure Housed (hand : List (BufferId × BufferState)) (f : FieldPort) (s : State) : Prop where
  accounts : Accounts (hand ++ heldBuffers s) s.pool
  rx : s.fieldPort.rx = f.rx
  sending : s.fieldPort.sending = f.sending

section
variable {hand : List (BufferId × BufferState)} {f : FieldPort} {b : BufferId} {st : BufferState} {s t : State}

theorem Housed.of_same (h : Housed hand f s) (pool : t.pool = s.pool) (host : t.hostPort = s.hostPort)
    (field : t.fieldPort = s.fieldPort) (waiting : t.mgmt.waiting = s.mgmt.waiting) : Housed hand f t := by
  obtain ⟨accounts, rx, sending⟩ := h
  rw [← pool, ← heldBuffers_congr host field waiting] at accounts
  exact ⟨accounts, field ▸ rx, field ▸ sending⟩

/-- A buffer in hand joins the Host Transmit Queue (R18). -/
theorem Housed.enqueueHost (h : Housed ((b, st) :: hand) f s) : Housed hand f (enqueueHost b s) := by
  refine ⟨(h.accounts.move { s.pool[b] with state := .queued } rfl nofun).perm ?_, h.rx, h.sending⟩
  refine (List.perm_middle.symm).trans (.append_left hand (.symm ?_))
  refine perm_exchange (c := [(b, .queued)])
    (heldBuffers_setHostPort { s.hostPort with queue := s.hostPort.queue ++ [b] } s rfl) ?_
  rw [List.perm_iff_count]
  intro x
  simp only [HostPort.outgoing, List.map_append, List.count_append, List.map_cons, List.map_nil]
  omega

/-- A buffer in hand joins the Field Transmit Queue (R19). -/
theorem Housed.enqueueField (h : Housed ((b, st) :: hand) f s) : Housed hand f (enqueueFieldBuffer b s) := by
  refine ⟨(h.accounts.move { s.pool[b] with state := .queued } rfl nofun).perm ?_, h.rx, h.sending⟩
  refine (List.perm_middle.symm).trans (.append_left hand (.symm ?_))
  refine perm_exchange (c := [(b, .queued)])
    (heldBuffers_setFieldPort { s.fieldPort with queue := s.fieldPort.queue ++ [.buffer b] } s rfl) ?_
  rw [List.perm_iff_count]
  intro x
  simp only [FieldPort.outgoing, List.map_append, List.count_append, List.filterMap_append, List.filterMap_cons,
    FieldItem.held, List.filterMap_nil, List.map_cons, List.map_nil]
  omega

theorem heldBuffers_enqueueReply (d : Descriptor) (s : State) : heldBuffers (enqueueReply d s) = heldBuffers s := by
  simp [heldBuffers, Machine.enqueueReply, FieldItem.held]

/-- A descriptor holds no buffer (R19). -/
theorem Housed.enqueueReply (h : Housed hand f s) (d : Descriptor) : Housed hand f (enqueueReply d s) :=
  ⟨by rw [heldBuffers_enqueueReply]; exact h.accounts, h.rx, h.sending⟩

/-- A Free buffer is taken in hand. -/
theorem Housed.claim (h : Housed hand f s) (hb : s.pool[b].state = .free) (x : Buffer) (hx : x.state ≠ .free) :
    Housed ((b, x.state) :: hand) f (setBuffer b x s) :=
  ⟨h.accounts.claim hb x rfl hx, h.rx, h.sending⟩

/-- A buffer in hand is written. -/
theorem Housed.write (h : Housed ((b, st) :: hand) f s) (x : Buffer) (hx : x.state ≠ .free) :
    Housed ((b, x.state) :: hand) f (setBuffer b x s) :=
  ⟨h.accounts.move x rfl hx, h.rx, h.sending⟩

theorem Housed.state_ne_free (h : Housed ((b, st) :: hand) f s) : s.pool[b].state ≠ .free := by
  obtain ⟨-, held, -⟩ := h.accounts
  obtain ⟨notFree, state⟩ := held (b, st) List.mem_cons_self
  exact state ▸ notFree

theorem Housed.rewrite (h : Housed ((b, st) :: hand) f s) (bytes : List Byte) :
    Housed ((b, s.pool[b].state) :: hand) f (setBuffer b { s.pool[b] with bytes := bytes } s) :=
  h.write { s.pool[b] with bytes := bytes } h.state_ne_free

/-! ### Notices and releases (R16, R17, R167) -/

theorem Housed.queueNotice (h : Housed hand f s) (hb : s.pool[b].state = .free) (topic : Byte) (payload : List Byte) :
    Housed hand f (queueNotice b topic payload s) :=
  (h.claim hb { state := .working, bytes := frameBytes 255 2 topic s.noticeNo payload } nofun).enqueueHost.of_same
    rfl rfl rfl rfl

theorem pool_free_of_firstFree (hb : firstFree s = some b) : s.pool[b].state = .free := by
  rcases firstFree_spec s with ⟨c, hc, free⟩ | ⟨none, -⟩
  · rw [hb] at hc
    cases hc
    exact free
  · rw [hb] at none
    cases none

theorem Housed.composeNotice (h : Housed hand f s) (topic : Byte) (payload : List Byte) :
    Housed hand f (composeNotice topic payload s) := by
  unfold Machine.composeNotice
  split
  · split
    · rename_i b hb _
      exact h.queueNotice (pool_free_of_firstFree hb) topic payload
    · exact h.of_same rfl rfl rfl rfl
  · exact h

theorem Housed.composeKeyNotice (h : Housed hand f s) : Housed hand f (composeKeyNotice s) := by
  unfold Machine.composeKeyNotice
  split
  · rename_i b hb
    dsimp only
    refine Housed.of_same (Housed.queueNotice (b := b) (s := { s with keyUnit.queue := s.keyUnit.queue.drop 8 })
      (h.of_same rfl rfl rfl rfl) (pool_free_of_firstFree hb) topicKey _) rfl rfl rfl rfl
  · exact h

theorem Housed.composeKeyNotices (h : Housed hand f s) : Housed hand f (composeKeyNotices s) := by
  unfold Machine.composeKeyNotices
  generalize s.keyUnit.queue.length = n
  induction n generalizing s with
  | zero => exact h
  | succ n ih =>
    unfold keyNoticeTurns
    split
    · exact ih h.composeKeyNotice
    · exact h

theorem Housed.releaseBuffer (h : Housed ((b, st) :: hand) f s) : Housed hand f (releaseBuffer b s) :=
  Housed.composeKeyNotices (s := setBuffer b {} s) ⟨h.accounts.release {} rfl, h.rx, h.sending⟩

theorem Housed.bump (h : Housed hand f s) (id : CounterId) : Housed hand f (bump id s) := h.of_same rfl rfl rfl rfl

/-! ### Replies (R18, R19, R62, R177) -/

theorem Housed.offerReply (h : Housed hand f s) (d : Descriptor) : Housed hand f (offerReply d s) := by
  unfold Machine.offerReply
  split
  · exact h.enqueueReply d
  · exact h.of_same (by simp) (by simp) (by simp) (by simp)

theorem Housed.offerBareReply (h : Housed hand f s) (topic tag : Byte) (flags : ReplyFlags) :
    Housed hand f (offerBareReply topic tag flags s) :=
  h.offerReply _

theorem Housed.composeReply (h : Housed hand f s) (p : ReplyPurpose) (topic tag : Byte) (x : Bool) (now : Instant) :
    Housed hand f (composeReply p topic tag x now s) := by
  have noHalf : Housed hand f (noHalfReply p topic tag x s) := by
    unfold noHalfReply
    split
    · exact h.offerBareReply ..
    · exact (h.bump _).offerBareReply ..
  unfold Machine.composeReply
  split
  · dsimp only
    split
    · split
      · unfold proxyReply
        dsimp only
        refine Housed.offerReply ?_ _
        split <;> exact h.of_same rfl rfl rfl rfl
      · exact (h.bump _).offerBareReply ..
    · exact noHalf
  · exact noHalf

theorem Housed.replyTo {c : Command} (h : Housed ((c.buffer, st) :: hand) f s) (code : Nat) (r : Result)
    (data : List Byte) : Housed hand f (replyTo code c r data s) := by
  unfold Machine.replyTo enqueueReplyBuffer
  split
  · split
    · exact (h.rewrite _).enqueueHost
    · exact (h.rewrite _).enqueueField
  · exact (h.bump _).releaseBuffer

/-! ### Changes of liveness (R57, R96) -/

theorem Housed.expireExchange (h : Housed hand f s) (i : ExchangeId) (x : Bool) (now : Instant) :
    Housed hand f (expireExchange i x now s) := by
  unfold Machine.expireExchange
  split
  · rename_i r _
    dsimp only
    generalize hu : setExchange i _ s = u
    have late : Housed hand f u := hu ▸ h.of_same rfl rfl rfl rfl
    have replied := late.composeReply .expiry r.topic r.tag x now
    generalize Machine.composeReply .expiry r.topic r.tag x now u = v at replied ⊢
    exact replied.of_same rfl rfl rfl rfl
  · exact h

end

theorem housed_moveKept (hand : List (BufferId × BufferState)) (f : FieldPort) : MoveKept (Housed hand f) where
  enter st tm t u h := enterState_of_parts (fun _ _ _ h => h.of_same rfl rfl rfl rfl)
    (fun _ h => h.of_same (by simp) (by simp) (by simp) (by simp)) (fun i x now _ h => h.expireExchange i x now)
    (fun _ h => h.of_same rfl rfl rfl rfl) (fun _ _ _ h => h.of_same rfl rfl rfl rfl) st tm t u h
  live _ _ _ h := h.of_same rfl rfl rfl rfl
  log _ _ h := h.of_same rfl rfl rfl rfl
  temp _ _ h := h.of_same rfl rfl rfl rfl
  count _ _ _ h := h.of_same rfl rfl rfl rfl

theorem Housed.acceptHeartbeat {hand : List (BufferId × BufferState)} {f : FieldPort} {s : State}
    (h : Housed hand f s) (now : Instant) (heard : s.live.state.hears = true) :
    Housed hand f (acceptHeartbeat now s) := by
  rcases acceptHeartbeat_cases now s heard with ⟨-, e⟩ | ⟨-, e⟩ | ⟨-, e⟩ <;> rw [e] <;> exact h.of_same rfl rfl rfl rfl

/-! ### The router (R34 to R46) -/

section
variable {hand : List (BufferId × BufferState)} {f : FieldPort} {st : BufferState} {s : State}

theorem Housed.trafficHeartbeat (h : Housed hand f s) (now : Instant) : Housed hand f (trafficHeartbeat now s) := by
  unfold Machine.trafficHeartbeat
  split
  · rename_i heard
    exact (h.acceptHeartbeat now (Bool.and_eq_true_iff.mp heard).2).bump _
  · exact h

theorem Housed.forwardRequest {x : RoutedFrame} (h : Housed ((x.buffer, st) :: hand) f s) :
    Housed hand f (forwardRequest x s) := by
  have full : Housed hand f (exchangeFull x s) := ((h.composeReply ..).bump _).releaseBuffer
  unfold Machine.forwardRequest
  split
  · split
    · exact h.enqueueHost.of_same (by simp) (by simp) (by simp) (by simp)
    · exact full
  · exact full

theorem Housed.forwardBroadcast {x : RoutedFrame} (h : Housed ((x.buffer, st) :: hand) f s) :
    Housed hand f (forwardBroadcast x s) := by
  unfold Machine.forwardBroadcast
  split
  · exact h.enqueueHost
  · exact (h.bump _).releaseBuffer

theorem Housed.forwardReply {x : RoutedFrame} (h : Housed ((x.buffer, st) :: hand) f s) :
    Housed hand f (forwardReply x s) := by
  unfold Machine.forwardReply
  split
  · exact h.enqueueField
  · exact (h.bump _).releaseBuffer

theorem Housed.routeAction {x : RoutedFrame} (h : Housed ((x.buffer, st) :: hand) f s) (e : RouteEntry) :
    Housed hand f (routeAction e x s) := by
  unfold Machine.routeAction routeForward routeDrop routeAnswer dropUnforwardable
  (repeat' split) <;> first
    | exact h.forwardRequest
    | exact h.forwardBroadcast
    | exact h.forwardReply
    | exact (h.bump _).releaseBuffer
    | exact (h.composeReply ..).releaseBuffer

theorem Housed.defaultHandling {x : RoutedFrame} (h : Housed ((x.buffer, st) :: hand) f s) :
    Housed hand f (defaultHandling x s) := by
  unfold Machine.defaultHandling defaultDrop
  dsimp only
  (repeat' split) <;> first
    | exact h.forwardRequest
    | exact h.forwardBroadcast
    | exact h.forwardReply
    | exact (h.bump _).releaseBuffer
    | exact ((h.bump _).offerBareReply ..).releaseBuffer

theorem Housed.endMatched (h : Housed hand f s) (m : Option ExchangeId) : Housed hand f (endMatched m s) :=
  h.of_same (by simp) (by simp) (by simp) (by simp)

theorem Housed.routeCapture (h : Housed hand f s) (e : RouteEntry) (x : RoutedFrame) :
    Housed hand f (routeCapture e x s) :=
  h.of_same (by simp) (by simp) (by simp) (by simp)

theorem Housed.routeByLookup {x : RoutedFrame} (h : Housed ((x.buffer, st) :: hand) f s) (m : Option ExchangeId) :
    Housed hand f (routeByLookup x m s) := by
  cases won : lookup x s with
  | none =>
    rw [routeByLookup_default x m s won]
    exact h.defaultHandling.endMatched m
  | some i =>
    have hit : Housed ((x.buffer, st) :: hand) f
        (patternFlags s.tables.route.live[i].pattern (Machine.hit i s)) := h.of_same rfl rfl rfl rfl
    have acted := ((hit.routeCapture s.tables.route.live[i] x).routeAction s.tables.route.live[i]).endMatched m
    unfold Machine.routeByLookup
    simp only [won, routeFeed_eq]
    split
    · exact acted.trafficHeartbeat _
    · exact acted

theorem Housed.routeLate {x : RoutedFrame} (h : Housed ((x.buffer, st) :: hand) f s) (r : Request) :
    Housed hand f (routeLate x r s) := by
  have finished : ∀ payload u, Housed ((x.buffer, st) :: hand) f u → Housed hand f (Machine.composeNotice topicLate
      payload (reportLateReply (Machine.bump Ctr.exchangesLateReplies (Machine.releaseBuffer x.buffer u)))) := by
    intro payload u hu
    have released := hu.releaseBuffer
    generalize Machine.releaseBuffer x.buffer u = v at released ⊢
    exact Housed.composeNotice (s := reportLateReply (Machine.bump _ v)) (released.of_same rfl rfl rfl rfl) ..
  unfold Machine.routeLate
  dsimp only
  refine finished _ _ ?_
  split
  · rename_i i _
    exact Housed.routeCapture (s := hit i s) (h.of_same rfl rfl rfl rfl) ..
  · exact h

theorem Housed.dropUnsolicited {x : RoutedFrame} (h : Housed ((x.buffer, st) :: hand) f s) :
    Housed hand f (dropUnsolicited x s) :=
  (h.bump _).releaseBuffer

theorem Housed.routeHostReply {x : RoutedFrame} (h : Housed ((x.buffer, st) :: hand) f s) :
    Housed hand f (routeHostReply x s) := by
  unfold Machine.routeHostReply
  split
  · split
    · exact h.routeByLookup _
    · split
      · split
        · exact h.routeLate _
        · exact h.dropUnsolicited
      · exact h.dropUnsolicited
  · exact h.dropUnsolicited

theorem Housed.routeOwnRequest {x : RoutedFrame} (h : Housed ((x.buffer, st) :: hand) f s) :
    Housed hand f (routeOwnRequest x s) := by
  unfold Machine.routeOwnRequest
  split
  · have copied : Housed ((x.buffer, st) :: hand) f (copyKeyList x.topic x.tag x.arrival s).2 :=
      h.of_same rfl rfl rfl rfl
    exact (copied.offerReply _).releaseBuffer.bump _
  · split
    · exact Housed.releaseBuffer (s := absorbRetry _ s) (h.of_same (by simp) (by simp) (by simp) (by simp))
    · exact h.routeByLookup none

theorem Housed.routeFrame {x : RoutedFrame} (h : Housed ((x.buffer, st) :: hand) f s) :
    Housed hand f (routeFrame x s) := by
  unfold Machine.routeFrame
  split
  · exact h.routeOwnRequest
  · split
    · exact h.routeHostReply
    · exact h.routeByLookup none

end

/-! ### Completion of a frame (R14, R7) -/

section
variable {hand : List (BufferId × BufferState)} {f : FieldPort} {b : BufferId} {st : BufferState} {s : State}

/-- A command frame in hand joins the list at the Management Unit (R177). -/
theorem Housed.awaitCommand (h : Housed ((b, .working) :: hand) f s) :
    Housed hand f { s with mgmt.waiting := s.mgmt.waiting ++ [b] } := by
  refine ⟨h.accounts.perm ?_, h.rx, h.sending⟩
  refine (List.perm_middle.symm).trans (.append_left hand (.symm ?_))
  refine perm_exchange (c := [(b, .working)])
    (heldBuffers_setMgmt { s.mgmt with waiting := s.mgmt.waiting ++ [b] } s) ?_
  rw [List.map_append]
  exact .refl _

theorem Housed.dispatchFrame (h : Housed ((b, .working) :: hand) f s) (p : Port) (a : Address) :
    Housed hand f (dispatchFrame p b a s) := by
  unfold Machine.dispatchFrame handToManagement discardMisaddressed
  dsimp only
  (repeat' split) <;> first
    | exact Housed.routeFrame (x := routedFrame b _ s) h
    | exact h.awaitCommand
    | exact Housed.replyTo (c := commandIn b s) h ..
    | exact (h.bump _).releaseBuffer

end

end Sys2Proof.Machine
end

section
/-! SUPPORT. The Frame Pool under every command: reception, transmission, the Management Unit and the resets, and the
statement O59. -/

namespace Sys2Proof.Machine

/-! ### Assemblers (R8 to R14) -/

/-- The Field Port after a port's receiver has changed. -/
def FieldPort.withRx (f : FieldPort) (p : Port) (r : Receiver) : FieldPort :=
  match p with
  | .host => f
  | .field => { f with rx := r }

section
variable {hand hand' : List (BufferId × BufferState)} {f : FieldPort} {s : State} {p : Port} {b : BufferId}

/-- A receiver changes: the buffers that leave its assembler come in hand, those that enter it leave it. -/
theorem Housed.setRx (h : Housed hand f s) (r : Receiver)
    (moved : (hand ++ (s.rx p).filling.map (·, BufferState.filling)).Perm
      (hand' ++ r.filling.map (·, .filling))) : Housed hand' (f.withRx p r) (setRx p r s) := by
  obtain ⟨accounts, rx, sending⟩ := h
  have places := heldBuffers_setRx p r s
  refine ⟨?_, by cases p <;> first | exact rx | rfl, by cases p <;> exact sending⟩
  rw [setRx_pool]
  refine accounts.perm ?_
  rw [List.perm_iff_count] at moved places ⊢
  intro x
  have moved := moved x
  have places := places x
  simp only [List.count_append] at moved places ⊢
  omega

theorem Housed.setRx_same (h : Housed hand f s) {r : Receiver} (same : r.filling = (s.rx p).filling) :
    Housed hand (f.withRx p r) (Machine.setRx p r s) :=
  h.setRx r (by rw [same])

theorem Housed.setRx_take (h : Housed hand f s) {r : Receiver} (was : (s.rx p).filling = [b])
    (now : r.filling = []) : Housed ((b, .filling) :: hand) (f.withRx p r) (Machine.setRx p r s) :=
  h.setRx r (by
    rw [was, now, List.map_nil, List.append_nil]
    exact List.perm_append_singleton (b, BufferState.filling) hand)

theorem Housed.setRx_put (h : Housed ((b, .filling) :: hand) f s) {r : Receiver} (was : (s.rx p).filling = [])
    (now : r.filling = [b]) : Housed hand (f.withRx p r) (Machine.setRx p r s) :=
  h.setRx r (by
    rw [was, now, List.map_nil, List.append_nil]
    exact (List.perm_append_singleton (b, BufferState.filling) hand).symm)

/-- A buffer is written where it stands. -/
theorem Accounts.rewrite {l : List (BufferId × BufferState)} {pool : Vector Buffer 24} (h : Accounts l pool)
    (b : BufferId) (x : Buffer) (hx : x.state = pool[b].state) : Accounts l (pool.set b x) := by
  have state : ∀ c : BufferId, (pool.set b x)[c].state = pool[c].state := by
    intro c
    rw [pool_get_set]
    split
    · rename_i e
      rw [hx, e]
    · rfl
  obtain ⟨nodup, held, free⟩ := h
  exact ⟨nodup, fun y hy => by rw [state]; exact held y hy, fun c hc => by rw [state]; exact free c hc⟩

end

/-- The pool is accounted for after what a port's receiver has done. -/
def HousedAfter (p : Port) (f : FieldPort) (s : State) : Prop := ∃ r : Receiver, Housed [] (f.withRx p r) s

section
variable {f : FieldPort} {s : State} {p : Port} {b : BufferId}

theorem FieldPort.withRx_withRx (f : FieldPort) (p : Port) (r r' : Receiver) :
    (f.withRx p r).withRx p r' = f.withRx p r' := by
  cases p <;> rfl

theorem Housed.after (h : Housed [] f s) : HousedAfter p f s :=
  ⟨match p with
    | .host => s.hostPort.rx
    | .field => f.rx, by cases p <;> exact h⟩

theorem filling_of_assembler {r : Receiver} {a : Address} (h : r.assembler = .filling b a) : r.filling = [b] := by
  rw [Receiver.filling, h]

theorem rx_bump (p : Port) (id : CounterId) (s : State) : (bump id s).rx p = s.rx p := by
  cases p <;> rfl

/-- A frame in Filling ends and its buffer is released (R10 to R13). -/
theorem Housed.dropFilling (h : Housed [] f s) (was : (s.rx p).filling = [b]) (a : Assembler)
    (ha : a = .idle ∨ a = .skipping) (id : CounterId) :
    ∃ r : Receiver, r.filling = [] ∧ Housed [] (f.withRx p r) (dropFilling p b a id s) := by
  have none : ({ s.rx p with assembler := a } : Receiver).filling = [] := by rcases ha with rfl | rfl <;> rfl
  exact ⟨_, none, ((h.setRx_take was none).bump id).releaseBuffer⟩

theorem Housed.appendByte (h : Housed [] f s) (was : (s.rx p).filling = [b]) (x : Byte) :
    HousedAfter p f (appendByte p b x s) := by
  unfold Machine.appendByte
  dsimp only
  split
  · obtain ⟨r, -, dropped⟩ := h.dropFilling was .skipping (.inr rfl) (Ctr.formatErrors p)
    exact ⟨r, dropped⟩
  · exact Housed.after ⟨h.accounts.rewrite b _ rfl, h.rx, h.sending⟩

/-- A frame starts where no frame is in Filling (R8). -/
theorem Housed.startFrame (h : Housed [] f s) (was : (s.rx p).filling = []) (x : Byte) :
    HousedAfter p f (startFrame p x s) := by
  have discarded : HousedAfter p f (discardNoBuffer p s) :=
    ⟨_, (h.bump (Ctr.noBufferDiscards p)).setRx_same (p := p)
      (r := { (Machine.bump (Ctr.noBufferDiscards p) s).rx p with assembler := .skipping })
      (by rw [rx_bump, was]; rfl)⟩
  unfold Machine.startFrame
  dsimp only
  split
  · split
    · rename_i c hc
      split
      · have claimed := h.claim (pool_free_of_firstFree hc) { state := .filling, port := p, bytes := [x] } nofun
        exact ⟨_, claimed.setRx_put (p := p) was rfl⟩
      · exact discarded
    · exact discarded
  · exact ⟨_, h.setRx_same (p := p) (r := { s.rx p with assembler := .skipping }) was.symm⟩

theorem HousedAfter.trans {r : Receiver} (h : HousedAfter p (f.withRx p r) s) : HousedAfter p f s := by
  obtain ⟨r', h⟩ := h
  exact ⟨r', FieldPort.withRx_withRx f p r r' ▸ h⟩

theorem filling_of_not_filling {r : Receiver} (h : ∀ b a, r.assembler ≠ .filling b a) : r.filling = [] := by
  unfold Receiver.filling
  split
  · rename_i b a e
    exact absurd e (h b a)
  · rfl

theorem composeKeyNotices_rx (s : State) : (composeKeyNotices s).hostPort.rx = s.hostPort.rx := by
  have once : ∀ u : State, (composeKeyNotice u).hostPort.rx = u.hostPort.rx := by
    intro u
    unfold Machine.composeKeyNotice
    split <;> rfl
  unfold composeKeyNotices
  generalize s.keyUnit.queue.length = n
  induction n generalizing s with
  | zero => rfl
  | succ n ih =>
    unfold keyNoticeTurns
    split
    · rw [ih, once]
    · rfl

theorem rx_releaseBuffer (p : Port) (b : BufferId) (s : State) : (releaseBuffer b s).rx p = s.rx p := by
  cases p
  · exact composeKeyNotices_rx _
  · simp [State.rx]

theorem rx_dropFilling (p : Port) (b : BufferId) (a : Assembler) (id : CounterId) (s : State) :
    (dropFilling p b a id s).rx p = { s.rx p with assembler := a } := by
  rw [dropFilling, rx_releaseBuffer, rx_bump, setAssembler, setRx_rx]

theorem Housed.takeCharacter (h : Housed [] f s) (c : Character) : HousedAfter p f (takeCharacter p c s) := by
  have silent : Housed [] (f.withRx p { s.rx p with busy := false, silence := 0 }) (restartSilence p s) :=
    h.setRx_same (p := p) rfl
  unfold Machine.takeCharacter
  dsimp only
  refine HousedAfter.trans (r := { s.rx p with busy := false, silence := 0 }) ?_
  generalize restartSilence p s = u, f.withRx p { s.rx p with busy := false, silence := 0 } = g at silent ⊢
  split
  · split
    · unfold takeMarker
      split
      · rename_i b a e
        obtain ⟨r, none, dropped⟩ := silent.dropFilling (filling_of_assembler e) .idle (.inl rfl) (Ctr.cutFrames p)
        refine HousedAfter.trans (r := r) (dropped.startFrame ?_ _)
        rw [rx_dropFilling]
        rfl
      · rename_i e
        exact silent.startFrame (filling_of_not_filling e) _
    · unfold takePlain
      split
      · rename_i e
        have counted := silent.bump (Ctr.strayCharacters p)
        refine ⟨_, counted.setRx_same (p := p) (r := { (Machine.bump (Ctr.strayCharacters p) u).rx p with
          assembler := .skipping }) ?_⟩
        rw [rx_bump, Receiver.filling, Receiver.filling, e]
      · exact silent.after
      · rename_i b a e
        exact silent.appendByte (filling_of_assembler e) _
  · unfold takeBad
    split
    · rename_i b a e
      obtain ⟨r, -, dropped⟩ := silent.dropFilling (filling_of_assembler e) .skipping (.inr rfl) (Ctr.framingErrors p)
      exact ⟨r, dropped⟩
    · exact (silent.bump _).after

theorem Housed.receive (h : Housed [] f s) (e : Reception) : HousedAfter p f (receive p e s) := by
  unfold Machine.receive
  split
  · exact ⟨_, h.setRx_same (p := p) rfl⟩
  · exact h.takeCharacter _

/-- A frame's completion: nothing, or the assembler Idle and the frame where R7 sends it (R14). -/
theorem Housed.completeFrame (h : Housed [] f s) (p : Port) :
    completeFrame p s = s ∨ (∃ b, (s.rx p).filling = [b]) ∧
      ∃ r : Receiver, r.filling = [] ∧ Housed [] (f.withRx p r) (completeFrame p s) := by
  unfold Machine.completeFrame
  split
  · rename_i b a e
    have was : (s.rx p).filling = [b] := by
      unfold completedFrame at e
      split at e
      · rename_i b' a' ha
        split at e
        · cases e
          exact filling_of_assembler ha
        · cases e
      · cases e
    refine .inr ⟨⟨b, was⟩, { s.rx p with assembler := .idle }, rfl, ?_⟩
    have taken : Housed [(b, .filling)] (f.withRx p { s.rx p with assembler := .idle }) (setAssembler p .idle s) :=
      h.setRx_take was rfl
    dsimp only
    split
    · exact ((taken.write { (setAssembler p .idle s).pool[b] with
        state := .working, arrival := (setAssembler p .idle s).clock } nofun).bump
          (Ctr.validFrames p)).dispatchFrame p a
    · exact (taken.bump _).releaseBuffer
  · exact .inl rfl

end

/-! ### Transmission (R21 to R24) -/

section
variable {hand hand' : List (BufferId × BufferState)} {f : FieldPort} {s : State} {b : BufferId}

/-- The Host Port's transmit side changes: the buffers that leave it come in hand, those that enter it leave it. -/
theorem Housed.setHostPort (h : Housed hand f s) (x : HostPort) (rx : x.rx.filling = s.hostPort.rx.filling)
    (moved : (hand ++ s.hostPort.outgoing).Perm (hand' ++ x.outgoing)) : Housed hand' f { s with hostPort := x } := by
  have places := heldBuffers_setHostPort x s rx
  refine ⟨h.accounts.perm ?_, h.rx, h.sending⟩
  rw [List.perm_iff_count] at moved places ⊢
  intro y
  have moved := moved y
  have places := places y
  simp only [List.count_append] at moved places ⊢
  omega

theorem Housed.setFieldPort (h : Housed hand f s) (x : FieldPort) (rx : x.rx.filling = s.fieldPort.rx.filling)
    (moved : (hand ++ s.fieldPort.outgoing).Perm (hand' ++ x.outgoing)) :
    Housed hand' x { s with fieldPort := x } := by
  have places := heldBuffers_setFieldPort x s rx
  refine ⟨h.accounts.perm ?_, rfl, rfl⟩
  rw [List.perm_iff_count] at moved places ⊢
  intro y
  have moved := moved y
  have places := places y
  simp only [List.count_append] at moved places ⊢
  omega

theorem Housed.startHostSending (h : Housed [] f s) {rest : List BufferId} (idle : s.hostPort.sending = none)
    (queue : s.hostPort.queue = b :: rest) : Housed [] f (startHostSending b rest s) := by
  have taken : Housed [(b, .queued)] f { s with hostPort := { s.hostPort with queue := rest } } :=
    h.setHostPort _ rfl (by simp [HostPort.outgoing, idle, queue])
  have sent := (taken.write { s.pool[b] with state := .sending } nofun).setHostPort (hand' := [])
    { s.hostPort with sending := some ⟨b, onLine (bytesAsSent s.pool[b].bytes)⟩, queue := rest } rfl
    (by simpa [HostPort.outgoing, idle] using List.perm_append_comm (l₁ := [(b, BufferState.sending)]))
  exact sent.composeKeyNotices

theorem Housed.startFieldSending (h : Housed [] f s) {i : FieldItem} {rest : List FieldItem}
    (idle : s.fieldPort.sending = none) (queue : s.fieldPort.queue = i :: rest) :
    Housed [] (startFieldSending i rest s).fieldPort (startFieldSending i rest s) := by
  unfold Machine.startFieldSending
  generalize onLine (itemBytes s i) = line
  cases i with
  | reply d =>
    exact h.setFieldPort { s.fieldPort with sending := some ⟨.reply d, line⟩, queue := rest } rfl
      (by simp [FieldPort.outgoing, idle, queue, FieldItem.held, List.filterMap_cons])
  | buffer b =>
    have taken : Housed [(b, .queued)] { s.fieldPort with queue := rest }
        { s with fieldPort := { s.fieldPort with queue := rest } } :=
      h.setFieldPort _ rfl (by simp [FieldPort.outgoing, idle, queue, FieldItem.held])
    exact (taken.write { s.pool[b] with state := .sending } nofun).setFieldPort (hand' := [])
      { s.fieldPort with sending := some ⟨.buffer b, line⟩, queue := rest } rfl
      (by simpa [FieldPort.outgoing, idle, FieldItem.held] using
        List.perm_append_comm (l₁ := [(b, BufferState.sending)]))

/-- The frame that the Host Port has sent is taken in hand, and its buffer released (R24). -/
theorem Housed.endHostSending (h : Housed [] f s) {x : HostTransmission} (sent : s.hostPort.sending = some x) :
    Housed [] f (Machine.releaseBuffer x.buffer
      (Machine.bump (Ctr.framesSent .host) { s with hostPort.sending := none })) := by
  have taken : Housed [(x.buffer, .sending)] f { s with hostPort := { s.hostPort with sending := none } } :=
    h.setHostPort _ rfl (by simp [HostPort.outgoing, sent])
  exact (taken.bump _).releaseBuffer

/-- The end of a field frame (R23, R24). -/
theorem Housed.finishField (h : Housed [] f s) {x : FieldTransmission} (sent : s.fieldPort.sending = some x)
    (quiet : s.fieldPort.rx.filling = []) :
    ∃ g : FieldPort, g.sending = none ∧ Housed [] g (finishField x.item s) := by
  unfold Machine.finishField
  dsimp only
  generalize hg : ({ s.fieldPort with
    sending := none, rx := { s.fieldPort.rx with assembler := .idle, busy := false, silence := 0 } } : FieldPort) = g
  have filling : g.rx.filling = s.fieldPort.rx.filling := by rw [quiet, ← hg]; rfl
  refine ⟨g, by rw [← hg], ?_⟩
  obtain ⟨item, line⟩ := x
  cases item with
  | reply d =>
    have taken : Housed [] g { s with fieldPort := g } :=
      h.setFieldPort g filling (by simp [FieldPort.outgoing, sent, ← hg, FieldItem.held])
    refine (taken.bump (Ctr.framesSent .field)).of_same ?_ ?_ ?_ ?_ <;>
      (unfold finishItem finishDescriptor; dsimp only; split <;> simp)
  | buffer b =>
    have taken : Housed [(b, .sending)] g { s with fieldPort := g } :=
      h.setFieldPort g filling (by simp [FieldPort.outgoing, sent, ← hg, FieldItem.held])
    exact (taken.bump _).releaseBuffer

end

/-! ### The resets (R26, R27) -/

/-- Nothing is held and every buffer is Free. -/
theorem Housed.of_cleared {s : State} (held : heldBuffers s = []) (pool : s.pool = Vector.replicate 24 {}) :
    Housed [] s.fieldPort s := by
  refine ⟨?_, rfl, rfl⟩
  rw [held, pool]
  exact ⟨.nil, nofun, fun b _ => by simp⟩

theorem inBandReset_housed (s : State) : Housed [] (inBandReset s).fieldPort (inBandReset s) :=
  .of_cleared (by simp [heldBuffers, inBandReset, resetPorts, resetKeys, Receiver.filling])
    (by simp [inBandReset, resetPorts, resetKeys])

theorem initialState_housed (log : RestartLog) (s : State) :
    Housed [] (initialState log s).fieldPort (initialState log s) :=
  .of_cleared rfl rfl

/-! ### Management commands (R177) -/

/-- A command taken up leaves the list of waiting commands, and nothing else of the state changes. -/
theorem takes_erases {code : Nat} {p : Port} {c : Command} {s s' : State} (h : Takes code p c s s') :
    c.buffer ∈ s.mgmt.waiting ∧ s' = { s with mgmt.waiting := s.mgmt.waiting.erase c.buffer } := by
  unfold Takes takeCommand at h
  split at h
  · rename_i b hb
    split at h
    · cases h
      exact ⟨List.mem_of_find?_eq_some hb, rfl⟩
    · cases h
  · cases h

/-- A command's own step leaves the buffers in their places, whatever is in hand. -/
def ActKeepsPool (act : Command → State → Answer) : Prop :=
  ∀ (hand : List (BufferId × BufferState)) (f : FieldPort) (c : Command) (u : State),
    Housed hand f u → Housed hand f (act c u).state

theorem ActKeepsPool.withLength {act : Command → State → Answer} (h : ActKeepsPool act) (n : Nat) :
    ActKeepsPool (withLength n act) := by
  intro hand f c u hu
  unfold Machine.withLength
  split
  · exact h hand f c u hu
  · exact hu

section
variable {hand : List (BufferId × BufferState)} {f : FieldPort} {s : State}

theorem Housed.takeCommand (h : Housed [] f s) {code : Nat} {p : Port} {c : Command} {s' : State}
    (taken : Takes code p c s s') : Housed [(c.buffer, .working)] f s' := by
  obtain ⟨waits, rfl⟩ := takes_erases taken
  have places := heldBuffers_setMgmt { s.mgmt with waiting := s.mgmt.waiting.erase c.buffer } s
  have erased := (List.perm_cons_erase waits).map (·, BufferState.working)
  refine ⟨h.accounts.perm ?_, h.rx, h.sending⟩
  rw [List.perm_iff_count] at places erased ⊢
  intro x
  have places := places x
  have erased := erased x
  simp only [List.count_append, List.map_cons, List.count_cons, List.cons_append, List.nil_append] at places erased ⊢
  omega

theorem Housed.serve (h : Housed [] f s) (code : Nat) (k : Permission) (p : Port) {act : Command → State → Answer}
    (keeps : ActKeepsPool act) : Housed [] f (serve code k p act s) := by
  cases taken : Machine.takeCommand code p s with
  | none =>
    unfold Machine.serve
    rw [taken]
    exact h
  | some x =>
    obtain ⟨c, s'⟩ := x
    rw [serve_eq code k p act c s s' taken]
    have inHand := h.takeCommand taken
    refine Housed.replyTo (st := .working) ?_ ..
    unfold answerCommand
    split
    · exact inHand
    · exact keeps _ f c s' inHand

theorem doFeed_keepsPool : ActKeepsPool doFeed := by
  intro hand f c u h
  unfold doFeed
  split
  · rename_i heard
    split
    · exact (housed_moveKept hand f).earlyFeed _ _ h
    · exact (h.acceptHeartbeat _ heard).bump _
  · exact h.bump _

theorem doHostRestart_keepsPool : ActKeepsPool doHostRestart := by
  intro hand f c u h
  unfold doHostRestart
  split
  · split
    · exact (housed_moveKept hand f).uncountedRestart _ _ _ _ h
    · exact h
  · exact h

theorem doHostRelease_keepsPool : ActKeepsPool doHostRelease := by
  intro hand f c u h
  unfold doHostRelease
  split
  · exact (housed_moveKept hand f).releaseHost _ _ h
  · exact h

theorem swapTable_ports (table : Nat) (s : State) : (swapTable table s).pool = s.pool ∧
    (swapTable table s).hostPort = s.hostPort ∧ (swapTable table s).fieldPort = s.fieldPort := by
  unfold swapTable commitSettings
  split <;> simp [commitRoute, commitKeyMap, commitChord, commitCurveA, commitCurveB, commitProxy, trimBudget]

theorem doCommit_keepsPool : ActKeepsPool doCommit := by
  intro hand f c u h
  have swapped : ∀ table, Housed hand f (swapTable table u) := fun table => by
    obtain ⟨pool, host, field⟩ := swapTable_ports table u
    exact h.of_same pool host field (by rw [swapTable_mgmt])
  unfold doCommit
  dsimp only
  split
  · split
    · exact h
    · split
      · exact h
      · dsimp only [done]
        split
        · exact Housed.of_same (swapped _) rfl rfl rfl rfl
        · exact swapped _
  · exact h

/-- The commands that only read, or write one field of the state that holds no buffer. -/
theorem simple_acts_keepPool (act : Command → State → Answer)
    (h : act ∈ [doStatus, doReadEntry, doWriteEntry, doDiscard, doWriteProxy, doSetFlags, doReadLog, doClearLog,
      doReadCounters, doLearnAirflow, doFreeze]) : ActKeepsPool act := by
  intro hand f c u hu
  simp only [List.mem_cons, List.not_mem_nil, or_false] at h
  rcases h with rfl | rfl | rfl | rfl | rfl | rfl | rfl | rfl | rfl | rfl | rfl
  · unfold doStatus
    split <;> exact hu
  · unfold doReadEntry
    (repeat' split) <;> exact hu
  · unfold doWriteEntry
    (repeat' split) <;> exact hu.of_same rfl rfl rfl rfl
  · unfold doDiscard
    split <;> exact hu.of_same rfl rfl rfl rfl
  · unfold doWriteProxy
    dsimp only
    (repeat' split) <;> exact hu.of_same rfl rfl rfl rfl
  · exact hu.of_same rfl rfl rfl rfl
  · unfold doReadLog
    split <;> exact hu
  · unfold doClearLog
    split <;> exact hu.of_same rfl rfl rfl rfl
  · unfold doReadCounters clearCounters
    dsimp only
    (repeat' split) <;> exact hu.of_same rfl rfl rfl rfl
  · unfold doLearnAirflow
    (repeat' split) <;> exact hu.of_same rfl rfl rfl rfl
  · exact hu.of_same rfl rfl rfl rfl

/-- SUPERVISOR RESET: the reply queued, or refused and the reset carried out (R189). -/
theorem Housed.supervisorReset (h : Housed [] f s) (quiet : f.sending.isSome = true → f.rx.filling = [])
    (t : State) (p : Port) (ht : exec (.supervisorReset p) s = .next t) :
    ∃ g : FieldPort, (g.sending.isSome = true → g.rx.filling = []) ∧ Housed [] g t := by
  cases ht
  split
  · rename_i c s' taken
    have inHand := h.takeCommand taken
    have replied : ∀ r, Housed [] f (Machine.replyTo 0x11 c r [] s') := fun r => inHand.replyTo ..
    unfold doSupervisorReset requestReset
    dsimp only
    (repeat' split) <;> first
      | exact ⟨f, quiet, replied _⟩
      | exact ⟨f, quiet, (replied _).of_same rfl rfl rfl rfl⟩
      | skip
    exact ⟨_, by simp [inBandReset, resetPorts, resetKeys], inBandReset_housed _⟩
  · exact ⟨f, quiet, h⟩

end

theorem management_keeps_housed (c : Instr) (s t : State) (h : Housed [] s.fieldPort s)
    (quiet : s.fieldPort.sending.isSome = true → s.fieldPort.rx.filling = []) (ht : exec c s = .next t)
    (hc : IsManagement c) :
    ∃ g : FieldPort, (g.sending.isSome = true → g.rx.filling = []) ∧ Housed [] g t := by
  have served : ∀ code k p (act : Command → State → Answer), ActKeepsPool act →
      t = serve code k p act s → ∃ g : FieldPort, (g.sending.isSome = true → g.rx.filling = []) ∧ Housed [] g t :=
    fun code k p act keeps e => ⟨s.fieldPort, quiet, e ▸ h.serve code k p keeps⟩
  have simple : ∀ act, act ∈ [doStatus, doReadEntry, doWriteEntry, doDiscard, doWriteProxy, doSetFlags, doReadLog,
      doClearLog, doReadCounters, doLearnAirflow, doFreeze] → ActKeepsPool act := simple_acts_keepPool
  obtain ⟨p, hc⟩ := hc
  simp only [List.mem_cons, List.not_mem_nil, or_false] at hc
  rcases hc with rfl | rfl | rfl | rfl | rfl | rfl | rfl | rfl | rfl | rfl | rfl | rfl | rfl | rfl | rfl | rfl | rfl
  case inr.inr.inr.inr.inr.inr.inr.inr.inr.inr.inr.inr.inr.inr.inr.inr => exact h.supervisorReset quiet t p ht
  all_goals cases ht
  · exact served _ _ _ _ ((simple doStatus (by simp)).withLength 1) rfl
  · exact served _ _ _ _ ((simple doReadEntry (by simp)).withLength 3) rfl
  · exact served _ _ _ _ (simple doWriteEntry (by simp)) rfl
  · exact served _ _ _ _ (doCommit_keepsPool.withLength 2) rfl
  · exact served _ _ _ _ ((simple doDiscard (by simp)).withLength 1) rfl
  · exact served _ _ _ _ (simple doWriteProxy (by simp)) rfl
  · exact served _ _ _ _ ((simple doSetFlags (by simp)).withLength 2) rfl
  · exact served _ _ _ _ (doFeed_keepsPool.withLength 0) rfl
  · exact served _ _ _ _ (doHostRestart_keepsPool.withLength 1) rfl
  · exact served _ _ _ _
      (ActKeepsPool.withLength (fun hand f c u => (housed_moveKept hand f).doHostPowerOff c u) 2) rfl
  · exact served _ _ _ _ (doHostRelease_keepsPool.withLength 0) rfl
  · exact served _ _ _ _ ((simple doReadLog (by simp)).withLength 1) rfl
  · exact served _ _ _ _ ((simple doClearLog (by simp)).withLength 0) rfl
  · exact served _ _ _ _ ((simple doReadCounters (by simp)).withLength 3) rfl
  · exact served _ _ _ _ ((simple doLearnAirflow (by simp)).withLength 0) rfl
  · exact served _ _ _ _ ((simple doFreeze (by simp)).withLength 0) rfl

/-! ### Events -/

/-- A port that sends fills no frame (R22, R23). -/
def FieldPort.Quiet (f : FieldPort) : Prop := f.sending.isSome = true → f.rx.filling = []

theorem FieldPort.Quiet.withRx {f : FieldPort} (h : f.Quiet) {p : Port} {r : Receiver}
    (hr : p = .field → f.sending.isSome = true → r.filling = []) : (f.withRx p r).Quiet := by
  cases p
  · exact h
  · exact hr rfl

/-- The pool is accounted for, and the Field Port fills no frame while it sends. -/
def WellHoused (t : State) : Prop := ∃ f : FieldPort, f.Quiet ∧ Housed [] f t

section
variable {s t : State}

theorem wellHoused_iff (s : State) : PoolAccounted s ↔ WellHoused s := by
  constructor
  · rintro ⟨nodup, held, free, quiet⟩
    exact ⟨s.fieldPort, quiet, ⟨nodup, fun x hx => ⟨heldBuffers_notFree s hx, held x hx⟩, free⟩, rfl, rfl⟩
  · rintro ⟨f, quiet, ⟨⟨nodup, held, free⟩, rx, sending⟩⟩
    refine ⟨nodup, fun x hx => (held x hx).2, free, ?_⟩
    rw [rx, sending]
    exact quiet

theorem receive_wellHoused (h : Housed [] s.fieldPort s) (quiet : s.fieldPort.Quiet) (p : Port) (e : Reception)
    (hears : isDeaf s p = false) : WellHoused (receive p e (completeFrame p s)) := by
  have silent : ∀ r, (s.fieldPort.withRx p r).Quiet := fun r => quiet.withRx fun hp sending => by
    subst hp
    exact absurd (hears.symm.trans sending) nofun
  rcases h.completeFrame p with same | ⟨-, r, -, completed⟩
  · rw [same]
    obtain ⟨r', received⟩ := h.receive (p := p) e
    exact ⟨_, silent r', received⟩
  · obtain ⟨r', received⟩ := (completed.receive (p := p) e : HousedAfter p (s.fieldPort.withRx p r) _).trans
    exact ⟨_, silent r', received⟩

theorem completeFrame_wellHoused (h : Housed [] s.fieldPort s) (quiet : s.fieldPort.Quiet) (p : Port) :
    WellHoused (completeFrame p s) := by
  rcases h.completeFrame p with same | ⟨-, r, none, completed⟩
  · rw [same]
    exact ⟨_, quiet, h⟩
  · exact ⟨_, quiet.withRx fun _ _ => none, completed⟩

theorem rx_quiet (quiet : s.fieldPort.Quiet) {p : Port} {r : Receiver} (same : r.filling = (s.rx p).filling) :
    (s.fieldPort.withRx p r).Quiet := by
  refine quiet.withRx ?_
  rintro rfl sending
  exact same.trans (quiet sending)

theorem finishHost_wellHoused (h : Housed [] s.fieldPort s) (quiet : s.fieldPort.Quiet) {x : HostTransmission}
    (sent : s.hostPort.sending = some x) : WellHoused (finishHost x.buffer s) := by
  unfold finishHost
  dsimp only
  split
  · exact ⟨_, by simp [FieldPort.Quiet, inBandReset, resetPorts, resetKeys], inBandReset_housed _⟩
  · exact ⟨_, quiet, h.endHostSending sent⟩

theorem startFieldSending_wellHoused (h : Housed [] s.fieldPort s) {i : FieldItem} {rest : List FieldItem}
    (idle : s.fieldPort.sending = none) (queue : s.fieldPort.queue = i :: rest) (may : fieldMayStart s = true) :
    WellHoused (startFieldSending i rest s) := by
  refine ⟨_, fun _ => ?_, h.startFieldSending idle queue⟩
  have rx : (startFieldSending i rest s).fieldPort.rx = s.fieldPort.rx := by
    cases i <;> rfl
  rw [rx]
  refine filling_of_not_filling fun b a e => ?_
  simp [fieldMayStart, isFilling, State.rx, e] at may

theorem fireChord_housed {f : FieldPort} (h : Housed [] f s) (c : ChordId) (now : Instant) :
    Housed [] f (fireChord c now s) := by
  have noted := Housed.composeNotice (s := setChord c .fired s) (h.of_same rfl rfl rfl rfl) topicChord
    [byte c, byte s.tables.chord.live[c].action.code, byte (bit (s.tables.chord.live[c].condition.holds s))]
  unfold fireChord
  dsimp only
  split
  · exact (housed_moveKept [] f).chordAct (fun _ _ h => h.of_same rfl rfl rfl rfl)
      (fun _ _ h => h.of_same rfl rfl rfl rfl) _ now _ (noted.bump _)
  · exact noted.bump _

theorem Housed.deliver {f : FieldPort} (h : Housed [] f s) (e : KeyEvent) (r : Bool) (now : Instant) :
    Housed [] f (deliver e r now s) :=
  h.of_same (by simp) (by simp) (by simp) (by simp)

theorem reportHappening_housed {f : FieldPort} (h : Housed [] f s) (p : KeyPos) (x : KeyHappening) :
    Housed [] f (reportHappening p x s) := by
  unfold reportHappening keypadNotice
  split <;> first
    | exact h
    | exact h.bump _
    | exact (h.bump _).composeNotice ..

theorem scanSample_housed {f : FieldPort} (h : Housed [] f s) (raw : BitVec 48) :
    Housed [] f (scanSample raw s).1 := by
  have noted : Housed [] f (noteSet (chooseSet s) s) := by
    unfold noteSet
    dsimp only
    (repeat' split) <;> exact h.of_same rfl rfl rfl rfl
  unfold scanSample
  dsimp only
  generalize noteSet (chooseSet s) s = u at noted ⊢
  split
  · unfold feedQuietRun
    dsimp only
    (repeat' split) <;> exact noted.of_same rfl rfl rfl rfl
  · split
    · exact noted.of_same rfl rfl rfl rfl
    · unfold handleKeys
      dsimp only
      generalize (Vector.ofFn fun p : KeyPos => sampleKey (sampleView (chooseSet s) raw u) p) = results
      have handled : Housed [] f { u with keypad.keys := Vector.ofFn fun p : KeyPos => results[p].1 } :=
        noted.of_same rfl rfl rfl rfl
      exact foldl_kept (P := Housed [] f) _ (fun v p hv => reportHappening_housed hv p _) _ _ handled

theorem keypadSample_housed {f : FieldPort} (h : Housed [] f s) (raw : BitVec 48) :
    Housed [] f (updateChords s.clock (handOverOutcomes (scanSample raw (nextKeypadSample s)).2 s.clock
      (scanSample raw (nextKeypadSample s)).1)) := by
  have scanned := scanSample_housed (s := nextKeypadSample s) (h.of_same rfl rfl rfl rfl) raw
  have delivered : Housed [] f (handOverOutcomes (scanSample raw (nextKeypadSample s)).2 s.clock
      (scanSample raw (nextKeypadSample s)).1) :=
    Housed.composeKeyNotices (foldl_kept (P := Housed [] f) _
      (fun u o hu => hu.of_same (by simp) (by simp) (by simp) (by simp)) _ _ scanned)
  exact delivered.of_same (by simp) (by simp) (by simp) (by simp)

theorem sampleChannel_housed {f : FieldPort} (h : Housed [] f s) (x : Sensor) (code : SensorCode) :
    Housed [] f (sampleChannel x code s) := by
  have sampled : ∀ m, Housed [] f { s with temp := m } := fun m => h.of_same rfl rfl rfl rfl
  unfold sampleChannel thermalNotice
  dsimp only
  split
  · exact ((sampled _).bump _).composeNotice ..
  · split
    · exact ((sampled _).bump _).composeNotice ..
    · exact sampled _

/-- The channels of a sampling event (R101 to R103). -/
theorem temperatureSample_housed {f : FieldPort} (h : Housed [] f s) (board glass air : SensorCode) :
    Housed [] f (sampleChannels board glass air { s with temp.lastSample := s.temp.lastSample + 100 }) := by
  have due : Housed [] f { s with temp.lastSample := s.temp.lastSample + 100 } := h.of_same rfl rfl rfl rfl
  have sampled := sampleChannel_housed (sampleChannel_housed (sampleChannel_housed due .board board) .glass glass)
    .air air
  unfold sampleChannels
  dsimp only
  generalize { s with temp.lastSample := s.temp.lastSample + 100 } = u at sampled ⊢
  generalize sampleChannel .air air (sampleChannel .glass glass (sampleChannel .board board u)) = v at sampled ⊢
  have learned : Housed [] f (abandonLearnOnLoss u v) :=
    sampled.of_same (by simp) (by simp) (by simp) (by simp)
  (repeat' split) <;> first
    | exact learned
    | exact learned.bump _
    | exact (learned.bump _).bump _

theorem fanNotice_housed {f : FieldPort} (h : Housed [] f s) (event : Nat) : Housed [] f (fanNotice event s) :=
  h.composeNotice ..

theorem judgeFan_housed {f : FieldPort} (h : Housed [] f s) (wasOff : Bool) : Housed [] f (judgeFan wasOff s) := by
  have fan : ∀ {u : State} x, Housed [] f u → Housed [] f { u with fan := x } := fun _ hu => hu.of_same rfl rfl rfl rfl
  have abandoned : ∀ {u : State}, Housed [] f u → Housed [] f (abandonLearn u) :=
    fun hu => hu.of_same (by simp) (by simp) (by simp) (by simp)
  unfold judgeFan judgeRunning judgeKicking judgeFailed startKick failFan recoverFan
  dsimp only
  (repeat' split) <;> first
    | exact h
    | exact fan _ h
    | exact (fan _ (abandoned (fan _ h))).bump _
    | exact fan _ (fan _ h)
    | exact (fan _ (fan _ h)).bump _
    | exact fanNotice_housed (abandoned ((fan _ (fan _ h)).bump _)) 1

theorem moveAirflowClock_housed {f : FieldPort} (h : Housed [] f s) : Housed [] f (moveAirflowClock s) := by
  have fan : ∀ {u : State} x, Housed [] f u → Housed [] f { u with fan := x } := fun _ hu => hu.of_same rfl rfl rfl rfl
  unfold moveAirflowClock refreshClog clogRefreshed
  dsimp only
  (repeat' split) <;> first
    | exact fan _ h
    | exact fan _ (fan _ h)
    | exact fanNotice_housed ((fan _ (fan _ (fan _ h))).bump _) 2

theorem heatBoundary_housed {f : FieldPort} (h : Housed [] f s) : Housed [] f (fanBoundary (heaterBoundary s)) :=
  moveAirflowClock_housed (judgeFan_housed (h.of_same (by simp) (by simp) (by simp) (by simp)) _)

theorem event_keeps_wellHoused (c : Instr) (h : Housed [] s.fieldPort s) (quiet : s.fieldPort.Quiet)
    (ht : exec c s = .next t) (hc : IsEvent c) : WellHoused t := by
  have still : ∀ {u : State}, Housed [] s.fieldPort u → WellHoused u := fun hu => ⟨_, quiet, hu⟩
  have K := housed_moveKept [] s.fieldPort
  obtain ⟨notManagement, notPowerOn, notLine⟩ := hc
  unfold IsManagement at notManagement
  cases c <;> simp at notManagement notPowerOn notLine
  case receiveCharacter p e =>
    cases ht
    split
    · exact still h
    · rename_i hears
      exact receive_wellHoused h quiet p e (Bool.not_eq_true _ ▸ hears)
  case skipTimeout p =>
    cases ht
    split
    · rename_i skipping
      simp only [Bool.and_eq_true, beq_iff_eq] at skipping
      have same : ({ s.rx p with assembler := .idle } : Receiver).filling = (s.rx p).filling := by
        rw [Receiver.filling, Receiver.filling, skipping.1.1]
      exact ⟨_, rx_quiet quiet same, h.setRx_same (p := p) same⟩
    · exact still h
  case gapError p =>
    cases ht
    split
    · rename_i b unfinished
      have was : (s.rx p).filling = [b] := by
        unfold unfinishedFrame at unfinished
        split at unfinished
        · rename_i b' a ha
          split at unfinished
          · cases unfinished
          · cases unfinished
            exact filling_of_assembler ha
        · cases unfinished
      split
      · obtain ⟨r, none, dropped⟩ := h.dropFilling was .idle (.inl rfl) (Ctr.gapErrors p)
        exact ⟨_, quiet.withRx fun _ _ => none, dropped⟩
      · exact still h
    · exact still h
  case frameComplete p =>
    cases ht
    exact completeFrame_wellHoused h quiet p
  case hostTransmitStart =>
    cases ht
    split
    · rename_i b rest idle queue
      exact still (h.startHostSending idle queue)
    · exact still h
  case fieldTransmitStart =>
    cases ht
    split
    · rename_i i rest idle queue
      split
      · rename_i may
        exact startFieldSending_wellHoused h idle queue may
      · exact still h
    · exact still h
  case transmissionComplete p =>
    cases ht
    cases p <;> dsimp only <;> split
    · rename_i x sent
      exact finishHost_wellHoused h quiet sent
    · exact still h
    · rename_i x sent
      obtain ⟨g, none, finished⟩ := h.finishField sent (quiet (by rw [sent]; rfl))
      exact ⟨g, fun sending => absurd sending (by rw [none]; nofun), finished⟩
    · exact still h
  case rateChangeApply p =>
    cases ht
    split
    · exact still h
    · exact ⟨_, rx_quiet quiet (r := { s.rx p with rate := committedRate p s }) rfl, h.setRx_same (p := p) rfl⟩
  case exchangeDeadlineExpiry i =>
    simp only [exec, execExchangeDeadlineExpiry] at ht
    split at ht
    · split at ht <;> cases ht
      exacts [still (h.expireExchange ..), still h]
    · cases ht
      exact still h
  case lateHoldExpiry i =>
    simp only [exec, execLateHoldExpiry] at ht
    split at ht
    · split at ht <;> cases ht
      exacts [still (h.of_same rfl rfl rfl rfl), still h]
    · cases ht
      exact still h
  all_goals cases ht
  case powerSettleExpiry | resetPulseExpiry =>
    split
    exacts [still (K.enterBooting _ _ h), still h]
  case bootGraceExpiry | warnGraceExpiry =>
    split
    exacts [still (K.countedRestart _ _ _ h), still h]
  case windowMaxExpiry =>
    split
    · exact still ((Housed.composeNotice (K.enter _ _ _ _ h) ..).bump _)
    · exact still h
  case cycleOffExpiry =>
    split
    · split
      exacts [still (K.enter _ _ _ _ h), still (K.enterColdHold _ _ h)]
    · exact still h
  case stopDelayExpiry =>
    split
    exacts [still (K.finishStop _ _ h), still h]
  case temperatureSample board glass air =>
    split
    · have sampled := temperatureSample_housed h board glass air
      exact still (K.handOverThermal _ _ _ (sampled.of_same (by simp) (by simp) (by simp) (by simp)))
    · exact still h
  case dwellExpiry =>
    split
    exacts [still (K.leaveColdHold _ (setReadiness .ready none s) (h.of_same rfl rfl rfl rfl)), still h]
  case heatBoundary =>
    split
    exacts [still (heatBoundary_housed h), still h]
  case keypadSample raw =>
    split
    exacts [still (keypadSample_housed h raw), still h]
  case repeatExpiry key =>
    have recorded : ∀ r, Housed [] s.fieldPort (bump Ctr.keysRepeatEvents (setRecord key r s)) :=
      fun r => h.of_same rfl rfl rfl rfl
    (repeat' split) <;> first
      | exact still h
      | exact still ((recorded _).deliver ..).composeKeyNotices
  case chordFire k =>
    (repeat' split) <;> first
      | exact still h
      | exact still (fireChord_housed h k _)
  case demandEvent | cutoffActive | heatStep | permitExpiry =>
    split <;> exact still (h.of_same rfl rfl rfl rfl)
  case tachPulse | cutoffRelease => exact still (h.of_same rfl rfl rfl rfl)
  case learnComplete | storeWriteComplete =>
    (repeat' split) <;> exact still (h.of_same rfl rfl rfl rfl)


/-! ### Every command -/

theorem poolAccounted_kept (c : Instr) (s t : State) (h : PoolAccounted s) (ht : exec c s = .next t) :
    PoolAccounted t := by
  rw [wellHoused_iff] at h ⊢
  obtain ⟨f, quiet, housed⟩ := h
  have own : Housed [] s.fieldPort s := ⟨housed.accounts, rfl, rfl⟩
  have quiet : s.fieldPort.Quiet := by
    unfold FieldPort.Quiet
    rw [housed.rx, housed.sending]
    exact quiet
  have started : ∀ log, WellHoused (autoStart (initialState log s)) := by
    intro log
    have K := housed_moveKept [] (initialState log s).fieldPort
    refine ⟨(initialState log s).fieldPort, (fun sending => nomatch (show false = true from sending)), ?_⟩
    unfold autoStart
    split
    · exact K.enterColdHold _ _ (initialState_housed log s)
    · exact initialState_housed log s
  rcases command_kinds c with hc | hc | rfl | rfl
  · exact management_keeps_housed c s t own quiet ht hc
  · exact event_keeps_wellHoused c own quiet ht hc
  · cases ht
    exact started {}
  · cases ht
    exact started _

/-- Settles O59. -/
theorem capacitiesKept : Obligations.CapacitiesKept :=
  ⟨settings_and_capacities_kept, poolAccounted_kept⟩

end

end Sys2Proof.Machine
end

section
/-! SUPPORT. Steps, ticks and resets: the statements O1 (a step), O2 (an idle step), O3 and O4 (liveness and the log
after a reset) and O60 (the reset state). -/

namespace Sys2Proof.Machine

/-! ### Steps and ticks (R1) -/

/-- Settles O1. -/
theorem stepRunsFrontCommand : Obligations.StepRunsFrontCommand := fun _ _ _ => rfl

theorem tick_of_waiting (s : State) (h : arrivalWorkWaits s = true) : tick s = s := if_pos h

theorem tick_of_idle (s : State) (h : arrivalWorkWaits s = false) : tick s =
    { s with
      clock := s.clock.tick
      hostPort := { s.hostPort with rx := s.hostPort.rx.tick }
      fieldPort := s.fieldPort.tick } :=
  if_neg (by rw [h]; nofun)

theorem Receiver.tick_eq (r : Receiver) :
    r.tick = { r with silence := r.silence + if r.busy = true then 0 else r.rate.bps / 9600 } := by
  unfold Receiver.tick
  split
  · rfl
  · rfl

theorem FieldPort.tick_eq (f : FieldPort) :
    f.tick = { f with rx := { f.rx with
      silence := f.rx.silence + if f.sending.isSome = true ∨ f.rx.busy = true then 0 else f.rx.rate.bps / 9600 } } := by
  unfold FieldPort.tick
  split
  · rename_i sends
    rw [if_pos (.inl sends)]
    rfl
  · rename_i idle
    simp only [Receiver.tick_eq, idle, Bool.false_eq_true, false_or]

/-- A tick moves no frame and no command frame: the same work waits after it. -/
theorem arrivalWorkWaits_tick (s : State) (h : arrivalWorkWaits s = false) : arrivalWorkWaits (tick s) = false := by
  have host : completedFrame .host (tick s) = completedFrame .host s := by
    rw [tick_of_idle s h, Receiver.tick_eq]
    rfl
  have field : completedFrame .field (tick s) = completedFrame .field s := by
    rw [tick_of_idle s h, FieldPort.tick_eq]
    rfl
  unfold arrivalWorkWaits at h ⊢
  rw [host, field, ← h, tick_of_idle s h]

theorem arrivalWorkWaits_ticks (n : Nat) (s : State) (h : arrivalWorkWaits s = false) :
    arrivalWorkWaits (tick^[n] s) = false := by
  induction n generalizing s with
  | zero => exact h
  | succ n ih => exact ih _ (arrivalWorkWaits_tick s h)

/-- The ticks into the second and the milliseconds after `n` ticks: 576 ticks are 5 milliseconds (log 1). -/
theorem clock_ticks (n : Nat) (s : State) (idle : arrivalWorkWaits s = false) (hsub : s.clock.sub < 115200) :
    (tick^[n] s).clock.sub = (s.clock.sub + n) % 115200 ∧
    (tick^[n] s).clock.ms =
      s.clock.ms + BitVec.ofNat 32 ((s.clock.sub + n) * 5 / 576 - s.clock.sub * 5 / 576) := by
  induction n with
  | zero => exact ⟨(Nat.mod_eq_of_lt hsub).symm, by simp⟩
  | succ n ih =>
    obtain ⟨sub, ms⟩ := ih
    rw [Function.iterate_succ_apply', tick_of_idle _ (arrivalWorkWaits_ticks n s idle)]
    dsimp only
    generalize (tick^[n] s).clock = c at sub ms ⊢
    have forward : ∀ a b : Nat, b = a + ((s.clock.sub + n) * 5 / 576 - s.clock.sub * 5 / 576) →
        c.ms + BitVec.ofNat 32 a = s.clock.ms + BitVec.ofNat 32 b := by
      rintro a b rfl
      rw [ms, BitVec.ofNat_add, BitVec.add_assoc, BitVec.add_comm (BitVec.ofNat 32 a)]
    have counted : s.clock.sub * 5 / 576 ≤ (s.clock.sub + n) * 5 / 576 := Nat.div_le_div_right (by omega)
    have seconds : ∀ k, (115200 * ((s.clock.sub + n) / 115200) + k) * 5 / 576 =
        1000 * ((s.clock.sub + n) / 115200) + k * 5 / 576 := fun k => by omega
    have total : s.clock.sub + n = 115200 * ((s.clock.sub + n) / 115200) + c.sub := by omega
    have before := seconds c.sub
    have after := seconds (c.sub + 1)
    rw [← total] at before
    rw [← Nat.add_assoc, ← total] at after
    have grows : c.sub * 5 / 576 ≤ (c.sub + 1) * 5 / 576 := Nat.div_le_div_right (by omega)
    rw [← Nat.add_assoc]
    unfold Instant.tick wholeMillis
    split
    · rename_i full
      have last : c.sub = 115199 := by omega
      rw [last] at before after
      exact ⟨by dsimp only; omega, forward 1 _ (by omega)⟩
    · exact ⟨by dsimp only; omega, forward _ _ (by omega)⟩

/-! ### The clock under every command (R1) -/

/-- Every part of a command leaves the clock. -/
theorem clock_kept (now : Instant) : Kept fun u => u.clock = now where
  other _ _ _ _ _ _ _ _ _ h := h
  unit _ _ _ h := h
  hostJoins _ _ _ h := h
  fieldJoins _ _ _ h := h
  rx _ _ _ h := by simpa using h
  keysTaken _ _ h := h
  flushed _ h := h
  composed _ _ _ _ _ _ h := by simpa using h
  keyCopy _ _ _ _ _ h := by simpa [copyKeyList] using h
  captured _ _ _ _ h := by simpa using h
  opened _ _ _ _ _ _ _ h := by simpa using h
  absorbed _ _ h := by simpa using h
  freed _ _ h := h
  expired _ _ _ _ h := by simpa using h
  hits _ _ h := h
  livef _ _ _ _ _ _ _ _ h := h
  accepted _ _ _ h := by simpa using h
  logged _ _ h := h
  entered _ _ _ _ _ h := by simpa using h
  warned _ _ _ _ h := by simpa using h
  aged _ _ h := h
  charged _ _ _ h := h
  budget0 _ h := h
  emptyLog _ h := h
  heat _ _ _ _ h := h
  demand _ h := h
  filled _ _ _ _ _ h := h
  tabs _ _ _ h := h
  swapped table s h := by
    unfold swapTable commitSettings
    split <;> simpa [commitRoute, commitKeyMap, commitChord, commitCurveA, commitCurveB, commitProxy, trimBudget] using h
  storing _ _ h := h
  stored _ _ _ h := h
  learned _ _ h := h
  offered _ _ _ h := by simpa using h
  listed _ _ _ _ h := by simpa using h
  sendHost _ _ _ _ _ h := h
  sendField _ _ _ _ _ h := h
  endHost _ h := h

/-! ### The state after a power-on or reset-line reset (R77, R98, R99) -/

/-- The autoStart step of a reset: COLD HOLD from the start of the time base, and nothing else (R77, R108). -/
theorem autoStart_initialState (log : RestartLog) (s : State) : autoStart (initialState log s) =
    if (settings (initialState log s)).autoStart = 0 then initialState log s
    else { initialState log s with live := { state := .coldHold }, temp := { fallbackStart := some 0 } } := by
  unfold autoStart
  simp only [bne_iff_ne, ne_eq, ite_not]
  split
  · rfl
  · generalize hu : initialState log s = u
    have live : u.live = {} := by rw [← hu]; rfl
    have temp : u.temp = {} := by rw [← hu]; rfl
    have clock : u.clock = {} := by rw [← hu]; rfl
    rw [enterColdHold, enterState_plain .coldHold none u.clock u (.inr rfl) (.inl (by rw [live]; rfl))]
    unfold startFallback leaveColdHold
    simp [live, temp, clock, coldFallback, workingBoard, Channel.usable]

theorem settings_autoStart (log : RestartLog) (s : State) :
    settings (autoStart (initialState log s)) = settings (initialState log s) := by
  rw [autoStart_initialState]
  split <;> rfl

theorem exec_powerOnReset (s : State) : exec .powerOnReset s = .next (autoStart (initialState {} s)) := rfl

theorem exec_resetLineReset (s : State) :
    exec .resetLineReset s = .next (autoStart (initialState (logAfterLineReset s) s)) := rfl

/-- After either reset the clock is at its start. -/
theorem autoStart_clock (log : RestartLog) (s : State) : (autoStart (initialState log s)).clock = {} := by
  rw [autoStart_initialState]
  split <;> rfl

/-- Settles O2. -/
theorem idleStepIsOneTick : Obligations.IdleStepIsOneTick := by
  refine ⟨fun s hp waits => ?_, fun s hp idle => ⟨tick s, ?_, ?_⟩, fun s n idle hsub => ?_, fun c s t ht => ?_⟩
  · rw [step, hp]
    exact congrArg _ (tick_of_waiting s waits)
  · rw [step, hp]
  · rw [tick_of_idle s idle, Receiver.tick_eq, FieldPort.tick_eq]
    exact ⟨rfl, rfl, rfl, rfl⟩
  · obtain ⟨sub, ms⟩ := clock_ticks n s idle hsub
    exact ⟨sub ▸ Nat.mod_lt _ (by decide), ms⟩
  · rcases command_kinds c with hc | hc | rfl | rfl
    · exact .inl (management_kept (clock_kept s.clock) c s t rfl ht hc fun _ _ u h => by simpa [inBandReset] using h)
    · exact .inl (event_kept (clock_kept s.clock) c s t rfl ht hc (fun _ x _ => by simp [finishField])
        fun _ _ _ _ u h => by simpa [inBandReset] using h)
    · cases ht
      exact .inr ⟨autoStart_clock {} s, .inl rfl⟩
    · cases ht
      exact .inr ⟨autoStart_clock _ s, .inr rfl⟩

/-- Settles O3. -/
theorem powerOnResetLiveness : Obligations.PowerOnResetLiveness := by
  intro s
  refine ⟨_, exec_powerOnReset s, ?_⟩
  rw [settings_autoStart, autoStart_initialState]
  split <;> exact ⟨rfl, rfl, rfl, rfl, rfl, rfl, rfl, rfl, rfl, rfl, rfl⟩

/-- Settles O4: the two resets start from the same blocks and differ in the log that they start with. -/
theorem resetLineKeepsRestartLog : Obligations.ResetLineKeepsRestartLog := by
  intro s
  refine ⟨_, _, exec_powerOnReset s, exec_resetLineReset s, ?_⟩
  rw [autoStart_initialState, autoStart_initialState]
  have same : settings (initialState (logAfterLineReset s) s) = settings (initialState {} s) := rfl
  rw [same]
  split <;> rfl

/-- Settles O60. -/
theorem resetIsSafe : Obligations.ResetIsSafe := by
  refine ⟨.of_unpowered ?_ rfl, .of_allFree rfl, ⟨fun _ => ⟨rfl, rfl⟩, nofun⟩,
    ⟨factorySettings_inRange, factorySettings_inRange, trivial, trivial⟩, ?_, rfl, ?_⟩
  · exact ⟨rfl, id, nofun, nofun, nofun, ⟨Nat.zero_le _, Nat.zero_le _, .inl rfl⟩,
      ⟨Nat.zero_le _, Nat.zero_le _, .inl rfl⟩⟩
  · refine ⟨Nat.zero_le _, Nat.zero_le _, Nat.zero_le _, Nat.zero_le _, Nat.zero_le _, Nat.zero_le _, fun e => ?_,
      by decide, by decide⟩
    have empty : State.reset.proxy[e] = {} := by simp [State.reset]
    rw [empty]
    exact ⟨Nat.zero_le _, Nat.zero_le _⟩
  · exact (wellHoused_iff _).mpr ⟨State.reset.fieldPort, (fun sending => nomatch (show false = true from sending)),
      .of_cleared rfl rfl⟩

end Sys2Proof.Machine
end

section
/-! SUPPORT. What the resets leave: the statements O5 (power-on and reset-line reset, and a load) and O6 (the in-band
reset). -/

namespace Sys2Proof.Machine

/-! ### A load and a cut write (R187, R188) -/

theorem loadsAs_passing {α : Type} (bytes : α → List Byte) (image : Option (StoredImage α)) (factory : α) :
    LoadsAs bytes image factory (.both ((passing bytes image).getD factory)) (passing bytes image).isNone := by
  constructor
  · rintro x rfl good
    rw [passing, if_pos good]
    exact ⟨rfl, rfl⟩
  · intro bad
    have none : passing bytes image = none := by
      cases image with
      | none => rfl
      | some x => exact if_neg (bad x rfl)
    rw [none]
    exact ⟨rfl, rfl⟩

/-- The DefaultsInUse marks after a load, table by table (R188). -/
theorem getLsbD_loadMarks (st : Store) :
    (loadMarks st).getLsbD 0 = (passing routeImage st.route).isNone ∧
    (loadMarks st).getLsbD 1 = (passing keyMapImage st.keyMap).isNone ∧
    (loadMarks st).getLsbD 2 = (passing chordImage st.chord).isNone ∧
    (loadMarks st).getLsbD 3 = (passing curveImage st.curveA).isNone ∧
    (loadMarks st).getLsbD 4 = (passing curveImage st.curveB).isNone ∧
    (loadMarks st).getLsbD 5 = (passing settingsImage st.settings).isNone ∧
    (loadMarks st).getLsbD 6 = (passing proxyImage st.proxy).isNone := by
  unfold loadMarks
  refine ⟨?_, ?_, ?_, ?_, ?_, ?_, ?_⟩ <;> exact BitVec.getLsbD_ofBoolListLE

/-- A reset that cuts a write leaves that image bad, and the others standing (R188). -/
theorem cutWrite_eq (st : Store) : cutWrite st =
    (let cut : Nat → Bool := fun id => st.writing.map StoreJob.id == some id
     { st with
        writing := none
        route := if cut 1 then none else st.route
        keyMap := if cut 2 then none else st.keyMap
        chord := if cut 3 then none else st.chord
        curveA := if cut 4 then none else st.curveA
        curveB := if cut 5 then none else st.curveB
        settings := if cut 6 then none else st.settings
        proxy := if cut 7 then none else st.proxy }) := by
  unfold cutWrite
  cases hw : st.writing with
  | none => rfl
  | some j => cases j <;> rfl

theorem loads_and_cuts (st : Store) :
    LoadsAs routeImage st.route factoryRoutes (loadTables st).route ((loadMarks st).getLsbD 0) ∧
    LoadsAs keyMapImage st.keyMap factoryKeyMap (loadTables st).keyMap ((loadMarks st).getLsbD 1) ∧
    LoadsAs chordImage st.chord factoryChords (loadTables st).chord ((loadMarks st).getLsbD 2) ∧
    LoadsAs curveImage st.curveA factoryCurveA (loadTables st).curveA ((loadMarks st).getLsbD 3) ∧
    LoadsAs curveImage st.curveB factoryCurveB (loadTables st).curveB ((loadMarks st).getLsbD 4) ∧
    LoadsAs settingsImage st.settings factorySettings (loadTables st).settings ((loadMarks st).getLsbD 5) ∧
    LoadsAs proxyImage st.proxy factoryProxy (loadTables st).proxy ((loadMarks st).getLsbD 6) := by
  obtain ⟨route, keyMap, chord, curveA, curveB, settings, proxy⟩ := getLsbD_loadMarks st
  rw [route, keyMap, chord, curveA, curveB, settings, proxy]
  exact ⟨loadsAs_passing .., loadsAs_passing .., loadsAs_passing .., loadsAs_passing .., loadsAs_passing ..,
    loadsAs_passing .., loadsAs_passing ..⟩

/-! ### Power-on and reset-line reset -/

theorem exec_reset (s : State) (r : Instr) (h : r = .powerOnReset ∨ r = .resetLineReset) :
    ∃ log, exec r s = .next (autoStart (initialState log s)) := by
  rcases h with rfl | rfl
  · exact ⟨_, exec_powerOnReset s⟩
  · exact ⟨_, exec_resetLineReset s⟩

/-- Settles O5: the reset state of `exec_reset` read block by block, the load image by image. -/
theorem resetClearsBlocks : Obligations.ResetClearsBlocks := by
  refine ⟨fun s r hr => ?_, fun s r hr => ?_, fun st => ?_⟩
  · obtain ⟨log, e⟩ := exec_reset s r hr
    have blocks : ∀ l m, let t : State := { initialState log s with live := l, temp := m }
        (t.hostPort.rx.assembler = .idle ∧ t.hostPort.sending = none ∧ t.hostPort.queue = [] ∧
          t.hostPort.rx.rate = LineRate.ofCode (settings t).hostRate) ∧
        t.fieldPort = { rx := { assembler := .idle, silence := 0, rate := LineRate.ofCode (settings t).fieldRate } } ∧
        (∀ b : BufferId, t.pool[b].state = .free) ∧ t.noticeNo = 0 ∧ t.counters = {} ∧ t.clock.ms = 0 ∧
        (∀ i : ExchangeId, t.exchanges[i] = .free) ∧ (∀ e : ProxyId, t.proxy[e] = {}) ∧
        (t.keyList.events = [] ∧ t.keyList.overflow = false) ∧
        t.keypad = { interval := (settings t).scanInterval.toNat } ∧ t.keyUnit = {} ∧
        (t.mgmt.frozen = false ∧ t.mgmt.permit = none ∧ t.mgmt.resetPending = none) ∧
        t.store = cutWrite s.store ∧ t.tables = loadTables t.store ∧ t.mgmt.defaultsInUse = loadMarks t.store ∧
        t.flags = BitVec.ofInt 8 (settings t).initialFlags := by
      intro l m
      refine ⟨⟨rfl, rfl, rfl, rfl⟩, rfl, fun b => ?_, rfl, rfl, rfl, fun i => ?_, fun e => ?_, ⟨rfl, rfl⟩, rfl, rfl,
        ⟨rfl, rfl, rfl⟩, rfl, rfl, rfl, rfl⟩ <;> simp [initialState]
    refine ⟨_, e, ?_⟩
    rw [autoStart_initialState]
    split
    · exact blocks (initialState log s).live (initialState log s).temp
    · exact blocks _ _
  · obtain ⟨log, e⟩ := exec_reset s r hr
    refine ⟨_, e, ?_⟩
    rw [settings_autoStart, autoStart_initialState]
    split <;> exact ⟨rfl, rfl, rfl, rfl⟩
  · obtain ⟨route, keyMap, chord, curveA, curveB, settings, proxy⟩ := loads_and_cuts st
    exact ⟨route, keyMap, chord, curveA, curveB, settings, proxy, rfl, cutWrite_eq st⟩

/-! ### What discarded field items release (R68, R72) -/

/-- The key-list copy that a field item carries, with the overflow mark in it (R20, R70). -/
def copyIn : FieldItem → Option (Nat × Bool)
  | .reply ⟨_, _, _, _, .keyList copy _ overflow⟩ => some (copy, overflow)
  | _ => none

theorem keyListCopies_eq (s : State) : keyListCopies s = (fieldItems s).filterMap copyIn := rfl

/-- What one discarded item releases of the halves (R63). -/
theorem discardItem_proxy (s : State) (i : FieldItem) (e : ProxyId) :
    (discardItem s i).proxy[e].active = s.proxy[e].active ∧
    ∀ h : HalfId, (discardItem s i).proxy[e].get h =
      { s.proxy[e].get h with pins := (s.proxy[e].get h).pins - if pinsHalf e h i then 1 else 0 } := by
  have same : ∀ (j : FieldItem) (t : State), t.proxy = s.proxy → (∀ h, pinsHalf e h j = false) →
      t.proxy[e].active = s.proxy[e].active ∧ ∀ h : HalfId, t.proxy[e].get h =
        { s.proxy[e].get h with pins := (s.proxy[e].get h).pins - if pinsHalf e h j then 1 else 0 } := by
    intro j t ht hp
    rw [ht]
    exact ⟨rfl, fun h => by rw [hp h]; rfl⟩
  match i with
  | .buffer _ => exact same _ s rfl fun _ => rfl
  | .reply ⟨_, _, _, _, .nothing⟩ => exact same _ s rfl fun _ => rfl
  | .reply ⟨_, _, _, _, .keyList n _ o⟩ => exact same _ (undoKeyList n o s) rfl fun _ => rfl
  | .reply ⟨_, _, _, _, .half j k⟩ =>
    show (unpinHalf j k s).proxy[e].active = _ ∧ ∀ h : HalfId, (unpinHalf j k s).proxy[e].get h = _
    unfold unpinHalf
    rw [setProxy_get]
    by_cases hj : e = j
    · subst hj
      rw [if_pos rfl]
      refine ⟨by cases k <;> rfl, fun h => ?_⟩
      rw [ProxyRuntime.get_set]
      by_cases hk : h = k
      · subst hk
        simp [pinsHalf]
      · simp [pinsHalf, hk, Ne.symm hk]
    · rw [if_neg hj]
      refine ⟨rfl, fun h => ?_⟩
      simp [pinsHalf, Ne.symm hj]

/-- What one discarded item returns to the Field Key List (R72). -/
theorem discardItem_keyList (s : State) (i : FieldItem) :
    (discardItem s i).keyList = (match copyIn i with
      | some (n, o) => (undoKeyList n o s).keyList
      | none => s.keyList) := by
  match i with
  | .buffer _ => rfl
  | .reply ⟨_, _, _, _, .nothing⟩ => rfl
  | .reply ⟨_, _, _, _, .half j k⟩ => rfl
  | .reply ⟨_, _, _, _, .keyList n _ o⟩ => rfl

/-- The halves after items are discarded: each has lost the pins that the items held (R68). -/
theorem foldl_discardItem_proxy (l : List FieldItem) (s : State) (e : ProxyId) :
    (l.foldl discardItem s).proxy[e].active = s.proxy[e].active ∧
    ∀ h : HalfId, (l.foldl discardItem s).proxy[e].get h =
      { s.proxy[e].get h with pins := (s.proxy[e].get h).pins - l.countP (pinsHalf e h) } := by
  induction l generalizing s with
  | nil => exact ⟨rfl, fun h => by simp⟩
  | cons i l ih =>
    obtain ⟨active, halves⟩ := ih (discardItem s i)
    rw [List.foldl_cons]
    obtain ⟨activeOne, halvesOne⟩ := discardItem_proxy s i e
    refine ⟨active.trans activeOne, fun h => ?_⟩
    rw [halves h, halvesOne h, List.countP_cons]
    simp only [Nat.sub_sub, Nat.add_comm]

/-- The Field Key List after items are discarded: the events of every copy that they held are pending again (R72). -/
theorem foldl_discardItem_keyList (l : List FieldItem) (s : State) :
    (l.foldl discardItem s).keyList = { s.keyList with
      events := s.keyList.events.map fun e =>
        if (l.filterMap copyIn).any (fun c => e.mark == .inFlight c.1) then { e with mark := .pending } else e
      overflow := s.keyList.overflow ||
        (l.filterMap copyIn).any fun c => c.2 && decide (s.keyList.cutBelow ≤ c.1) } := by
  induction l generalizing s with
  | nil => simp
  | cons i l ih =>
    rw [List.foldl_cons, ih, discardItem_keyList]
    cases hc : copyIn i with
    | none => simp [hc]
    | some c =>
      obtain ⟨n, o⟩ := c
      simp only [List.filterMap_cons_some hc, List.any_cons, undoKeyList, List.map_map, Bool.or_assoc]
      congr 1
      apply List.map_congr_left
      intro e _
      cases he : e.mark == .inFlight n
      · simp only [Function.comp, he, Bool.false_or, Bool.false_eq_true, if_false]
      · simp only [Function.comp, he, Bool.true_or, if_true]
        split <;> rfl

/-- Discarded items change the halves and the Field Key List alone. -/
theorem foldl_discardItem_eq (l : List FieldItem) (s : State) :
    ∃ p k, l.foldl discardItem s = { s with proxy := p, keyList := k } := by
  induction l generalizing s with
  | nil => exact ⟨_, _, rfl⟩
  | cons i l ih =>
    obtain ⟨p, k, e⟩ := ih (discardItem s i)
    have one : ∃ q m, discardItem s i = { s with proxy := q, keyList := m } :=
      match i with
      | .buffer _ => ⟨_, _, rfl⟩
      | .reply ⟨_, _, _, _, .nothing⟩ => ⟨_, _, rfl⟩
      | .reply ⟨_, _, _, _, .half _ _⟩ => ⟨_, _, rfl⟩
      | .reply ⟨_, _, _, _, .keyList _ _ _⟩ => ⟨_, _, rfl⟩
    obtain ⟨q, m, e'⟩ := one
    exact ⟨p, k, by rw [List.foldl_cons, e, e']⟩

/-! ### What KEY notices count -/

/-- KEY notices count in the Keys group alone (R174). -/
theorem composeKeyNotices_counters (s : State) :
    (composeKeyNotices s).counters = { s.counters with keys := (composeKeyNotices s).counters.keys } := by
  have turns : ∀ n (u : State), (keyNoticeTurns n u).counters =
      { u.counters with keys := (keyNoticeTurns n u).counters.keys } := by
    intro n
    induction n with
    | zero => exact fun u => rfl
    | succ n ih =>
      intro u
      unfold keyNoticeTurns
      split
      · have one : (composeKeyNotice u).counters = { u.counters with keys := (composeKeyNotice u).counters.keys } := by
          unfold composeKeyNotice
          split <;> rfl
        rw [ih, one]
      · rfl
  exact turns _ s

/-- A buffer's release counts in the Keys group alone. -/
theorem releaseBuffer_counters (b : BufferId) (s : State) :
    (releaseBuffer b s).counters = { s.counters with keys := (releaseBuffer b s).counters.keys } :=
  composeKeyNotices_counters _

/-! ### The in-band reset (R189) -/

theorem inBandReset_proxy (s : State) (e : ProxyId) :
    (inBandReset s).proxy[e] = ((fieldItems s).foldl discardItem s).proxy[e].afterSetup s.tables.proxy.live[e]
      (loadTables s.store).proxy.live[e] := by
  obtain ⟨p, k, discarded⟩ := foldl_discardItem_eq (fieldItems s) s
  simp [inBandReset, resetKeys, resetPorts, proxyAfterReload, discarded]

theorem inBandReset_keyList (s : State) :
    (inBandReset s).keyList = ((fieldItems s).foldl discardItem s).keyList := by
  simp [inBandReset, resetKeys, resetPorts]

/-- The halves of an entry after the reload (R67, R68). -/
theorem afterSetup_get (r : ProxyRuntime) (old new : ProxySetup) (h : HalfId) :
    (r.afterSetup old new).active = r.active ∧
    (old.valid = new.valid ∧ old.topic = new.topic → (r.afterSetup old new).get h = r.get h) ∧
    (¬(old.valid = new.valid ∧ old.topic = new.topic) → (r.get h).pins = 0 →
      (r.afterSetup old new).get h = {}) ∧
    (¬(old.valid = new.valid ∧ old.topic = new.topic) → 0 < (r.get h).pins →
      (r.afterSetup old new).get h = { r.get h with filled := false }) := by
  have emptied : ({ r with half0 := r.half0.emptied, half1 := r.half1.emptied } : ProxyRuntime).get h =
      (r.get h).emptied := by
    cases h <;> rfl
  unfold ProxyRuntime.afterSetup
  by_cases same : old.valid = new.valid ∧ old.topic = new.topic
  · rw [if_pos same]
    exact ⟨rfl, fun _ => rfl, fun n => absurd same n, fun n => absurd same n⟩
  · rw [if_neg same, emptied]
    exact ⟨rfl, fun n => absurd n same, fun _ none => if_pos none, fun _ some => if_neg some.ne'⟩

/-- The channels after the in-band reset: those that the reloaded Settings do not allow are blocked (R124). -/
theorem inBandReset_blocks (s : State) : BlocksNotAllowed s (inBandReset s) := by
  obtain ⟨p, k, discarded⟩ := foldl_discardItem_eq (fieldItems s) s
  refine (blockNotAllowed_spec _).of_same ?_ ?_ <;>
    simp only [resetKeys, resetPorts, discarded] <;> rfl

/-- Blocking the channels that are not allowed changes the heaters and what is counted of them (R124). -/
theorem blockNotAllowed_eq (s : State) : blockNotAllowed s = { s with
    heat := (blockNotAllowed s).heat
    counters := { s.counters with thermal := (blockNotAllowed s).counters.thermal } } := by
  have one : ∀ c u, blockIfNotAllowed c u = { u with
      heat := (blockIfNotAllowed c u).heat
      counters := { u.counters with thermal := (blockIfNotAllowed c u).counters.thermal } } := by
    intro c u
    unfold blockIfNotAllowed
    split
    · rfl
    · cases c <;> rfl
  unfold blockNotAllowed
  rw [one .glass, one .board]

/-- What the in-band reset keeps, and what it starts again (R189). -/
theorem inBandReset_parts (s : State) :
    ((inBandReset s).log = s.log ∧ (inBandReset s).counters.liveness = s.counters.liveness) ∧
    ((inBandReset s).temp = s.temp ∧ (inBandReset s).fan = s.fan ∧ (inBandReset s).heat.pending = s.heat.pending ∧
      (inBandReset s).clock = s.clock) ∧
    (inBandReset s).mgmt = { s.mgmt with waiting := [], resetPending := none, defaultsInUse := loadMarks s.store } ∧
    (inBandReset s).pool = Vector.replicate 24 {} ∧
    (inBandReset s).hostPort = { rx := { rate := .ofCode (settings (inBandReset s)).hostRate } } ∧
    (inBandReset s).fieldPort = { rx := { rate := .ofCode (settings (inBandReset s)).fieldRate } } ∧
    (inBandReset s).keypad = { s.keypad with
      keys := Vector.replicate 48 .up, flooded := false, quietStart := none } ∧
    (inBandReset s).keyUnit = {} ∧
    (inBandReset s).flags = BitVec.ofInt 8 (settings (inBandReset s)).initialFlags := by
  obtain ⟨p, k, discarded⟩ := foldl_discardItem_eq (fieldItems s) s
  obtain ⟨heat, -⟩ := inBandReset_blocks s
  refine ⟨⟨?_, ?_⟩, ⟨?_, ?_, ?_, ?_⟩, ?_, ?_, ?_, ?_, ?_, ?_, ?_⟩
  case refine_5 => rw [heat]
  case refine_2 =>
    unfold inBandReset
    rw [blockNotAllowed_eq]
    simp only [resetKeys, resetPorts, discarded]
    rfl
  case refine_9 | refine_10 | refine_13 =>
    rw [settings, inBandReset_tables]
    simp [inBandReset, resetKeys, resetPorts, discarded, initialFlagSet]
  all_goals simp [inBandReset, resetKeys, resetPorts, discarded]

/-- Settles O6: the in-band reset of the state that the end of the reply leaves, whose discarded field items release
what they held. -/
theorem inBandResetAtReplyEnd : Obligations.InBandResetAtReplyEnd := by
  intro s x sending pending
  let v : State := bump (Ctr.framesSent .host) { s with hostPort.sending := none }
  let u : State := releaseBuffer x.buffer v
  have e : exec (.transmissionComplete .host) s = .next (inBandReset u) := by
    show execTransmissionComplete .host s = _
    simp [execTransmissionComplete, sending, finishHost, pending, u, v]
  have counters : u.counters = { v.counters with keys := u.counters.keys } := releaseBuffer_counters _ _
  have same : u.live = s.live ∧ u.log = s.log ∧ u.temp = s.temp ∧ u.fan = s.fan ∧ u.heat = s.heat ∧
      u.clock = s.clock ∧ u.mgmt = s.mgmt ∧ u.keyList = s.keyList ∧ u.proxy = s.proxy ∧ u.tables = s.tables ∧
      u.store = s.store ∧ fieldItems u = fieldItems s := by
    simp [u, v, fieldItems]
  obtain ⟨live, log, temp, fan, heat, clock, mgmt, keyList, proxy, tables, store, items⟩ := same
  obtain ⟨⟨logKept, livenessKept⟩, ⟨tempKept, fanKept, pendingKept, clockKept⟩, mgmtAfter, pool, hostPort, fieldPort,
    keypad, keyUnit, flags⟩ := inBandReset_parts u
  refine ⟨_, e, ⟨(inBandReset_live u).trans live, logKept.trans log, ?_⟩, ⟨tempKept.trans temp, fanKept.trans fan,
    pendingKept.trans (by rw [heat]), clockKept.trans clock⟩, ?_, ?_, fun b => ?_, hostPort, fieldPort, fun i => ?_,
    fun k => ?_, ?_, keyUnit, ?_, ?_, ?_, flags, fun en h => ?_, ?_⟩
  · rw [livenessKept, counters]
    rfl
  · exact (inBandReset_blocks u).of_same heat (by rw [counters]; rfl)
  · rw [mgmtAfter, mgmt]
    exact ⟨rfl, rfl, rfl⟩
  · rw [pool]
    simp
  · rw [inBandReset_exchanges]
    simp
  · rw [keypad]
    simp
  · rw [keypad]
  · rw [inBandReset_store, store]
  · rw [inBandReset_tables, store]
  · rw [mgmtAfter, store]
  · obtain ⟨active, halves⟩ := foldl_discardItem_proxy (fieldItems u) u en
    obtain ⟨activeAfter, kept, emptied, unfilled⟩ := afterSetup_get ((fieldItems u).foldl discardItem u).proxy[en]
      u.tables.proxy.live[en] (loadTables u.store).proxy.live[en] h
    rw [← inBandReset_proxy, halves h] at kept emptied unfilled
    rw [← inBandReset_proxy, active] at activeAfter
    rw [← inBandReset_tables, items, proxy, tables] at kept emptied unfilled
    rw [proxy] at activeAfter
    exact ⟨activeAfter, kept, emptied, unfilled⟩
  · rw [inBandReset_keyList, foldl_discardItem_keyList, keyListCopies_eq, items, keyList]

end Sys2Proof.Machine
end

section
/-! SUPPORT. The ports and the frames: receive assembly (O7, O8, O9), the completion of a frame (O10) and the check that
every sent frame carries (O11). -/

namespace Sys2Proof.Machine

/-! ### Stations (R6, R7) -/

theorem stationAddress_host (x : Byte) (s : State) :
    (stationAddress .host x s = .management ↔ x = 255) ∧
    (stationAddress .host x s = .own ↔ x ≠ 255 ∧ x = ownStation s) ∧
    (stationAddress .host x s = .other ↔ x ≠ 255 ∧ x ≠ ownStation s) := by
  simp only [stationAddress]
  split_ifs <;> simp_all

theorem stationAddress_field (x : Byte) (s : State) :
    (stationAddress .field x s = .management ↔ x = mgmtStation s) ∧
    (stationAddress .field x s = .own ↔ x ≠ mgmtStation s ∧ x = ownStation s) ∧
    (stationAddress .field x s = .broadcast ↔ x ≠ mgmtStation s ∧ x ≠ ownStation s ∧ x = 0) ∧
    (stationAddress .field x s = .other ↔ x ≠ mgmtStation s ∧ x ≠ ownStation s ∧ x ≠ 0) := by
  simp only [stationAddress]
  split_ifs <;> simp_all

/-- The Field Port's filter stops the frames of other drops, and no other filter stands (R8). -/
theorem passesFilter_eq_false_iff (p : Port) (x : Byte) (s : State) :
    passesFilter p (stationAddress p x s) = false ↔
      p = .field ∧ x ≠ ownStation s ∧ x ≠ mgmtStation s ∧ x ≠ 0 := by
  cases p with
  | host => simp [passesFilter]
  | field =>
    obtain ⟨-, -, -, other⟩ := stationAddress_field x s
    simp only [passesFilter, bne_eq_false_iff_eq, other, true_and]
    exact and_left_comm

theorem stationAddress_restartSilence (p q : Port) (x : Byte) (s : State) :
    stationAddress p x (restartSilence q s) = stationAddress p x s := by
  cases p <;> cases q <;> rfl

/-! ### A frame begins (R8) -/

theorem restartSilence_assembler (p : Port) (s : State) :
    ((restartSilence p s).rx p).assembler = (s.rx p).assembler := by
  rw [restartSilence, setRx_rx]

theorem freeCount_congr {s t : State} (h : t.pool = s.pool) : freeCount t = freeCount s := by
  unfold freeCount isFree
  rw [h]

theorem startFrame_stopped {p : Port} {x : Byte} {s : State} (h : passesFilter p (stationAddress p x s) = false) :
    startFrame p x s = setAssembler p .skipping s := by
  unfold startFrame
  simp [h]

theorem startFrame_claimed {p : Port} {x : Byte} {s : State} (h : passesFilter p (stationAddress p x s) = true)
    (free : 3 ≤ freeCount s) : ∃ b : BufferId, s.pool[b].state = .free ∧
      startFrame p x s = beginFilling p b x (stationAddress p x s) s := by
  rcases firstFree_spec s with ⟨b, claim, isFree⟩ | ⟨-, none⟩
  · refine ⟨b, isFree, ?_⟩
    unfold startFrame
    simp [h, claim, free]
  · omega

theorem startFrame_discarded {p : Port} {x : Byte} {s : State} (h : passesFilter p (stationAddress p x s) = true)
    (few : ¬3 ≤ freeCount s) : startFrame p x s = discardNoBuffer p s := by
  unfold startFrame
  simp only [h, if_true]
  cases firstFree s <;> simp [few]

/-! ### Receptions at a port that hears -/

/-- A reception at a port that hears it, with no completed frame before it (R2, R14). -/
theorem exec_receiveCharacter {s : State} {p : Port} (hears : isDeaf s p = false) (plain : completeFrame p s = s)
    (e : Reception) : exec (.receiveCharacter p e) s = .next (receive p e s) := by
  show execReceiveCharacter p e s = _
  simp [execReceiveCharacter, hears, plain]

theorem takeMarker_outside {s : State} {p : Port}
    (h : (s.rx p).assembler = .idle ∨ (s.rx p).assembler = .skipping) (x : Byte) :
    takeMarker p x s = startFrame p x s := by
  unfold takeMarker
  rcases h with h | h <;> rw [h]

theorem takeBad_outside {s : State} {p : Port}
    (h : (s.rx p).assembler = .idle ∨ (s.rx p).assembler = .skipping) :
    takeBad p s = bump (Ctr.framingErrors p) s := by
  unfold takeBad
  rcases h with h | h <;> rw [h]

/-- Settles O7: outside a frame a marker is `startFrame`, whose filter and claim decide the three cases. -/
theorem markerStartsFrame : Obligations.MarkerStartsFrame := by
  refine ⟨fun s p x hears outside => ?_, fun s x => ?_⟩
  · have run : exec (.receiveCharacter p (.taken ⟨x, true, true⟩)) s = .next (startFrame p x (restartSilence p s)) := by
      rw [exec_receiveCharacter hears (completeFrame_outside_filling p s outside)]
      exact congrArg _ (takeMarker_outside (by rw [restartSilence_assembler]; exact outside) x)
    rw [run]
    have address := stationAddress_restartSilence p p x s
    have count : freeCount (restartSilence p s) = freeCount s := freeCount_congr (restartSilence_pool p s)
    split_ifs with stopped free
    · rw [startFrame_stopped (by rwa [address, passesFilter_eq_false_iff])]
    · rw [← passesFilter_eq_false_iff, Bool.not_eq_false] at stopped
      obtain ⟨b, isFree, begun⟩ := startFrame_claimed (s := restartSilence p s) (by rwa [address]) (by rwa [count])
      rw [restartSilence_pool] at isFree
      refine ⟨b, isFree, ?_⟩
      rw [begun, address]
      rfl
    · rw [← passesFilter_eq_false_iff, Bool.not_eq_false] at stopped
      rw [startFrame_discarded (by rwa [address]) (by rwa [count])]
      rfl
  · obtain ⟨management, own, other⟩ := stationAddress_host x s
    obtain ⟨management', own', broadcast', other'⟩ := stationAddress_field x s
    exact ⟨management, own, other, management', own', broadcast', other', rfl, rfl⟩

/-- Settles O8, event by event. -/
theorem lineEventsOutsideFrames : Obligations.LineEventsOutsideFrames := by
  refine ⟨⟨fun s p x hears idle => ?_, fun s p x hears skipping => ?_, fun s p x m hears outside => ?_,
    fun s e deaf => ?_⟩, ⟨fun s p hears none => ?_, fun s p => rfl⟩, ⟨fun s p => ?_, fun s p b a filling short => ?_⟩,
    fun s p => ?_⟩
  · rw [exec_receiveCharacter hears (completeFrame_outside_filling p s (.inl idle))]
    simp [receive, takeCharacter, takePlain, restartSilence_assembler, idle]
  · rw [exec_receiveCharacter hears (completeFrame_outside_filling p s (.inr skipping))]
    simp [receive, takeCharacter, takePlain, restartSilence_assembler, skipping]
  · rw [exec_receiveCharacter hears (completeFrame_outside_filling p s outside)]
    have bad := takeBad_outside (s := restartSilence p s) (p := p) (by rwa [restartSilence_assembler])
    simp [receive, takeCharacter, bad]
  · show execReceiveCharacter .field e s = _
    simp [execReceiveCharacter, isDeaf, deaf]
  · have plain : completeFrame p s = s := by rw [completeFrame, none]
    rw [exec_receiveCharacter hears plain]
    rfl
  · show execSkipTimeout p s = _
    simp [execSkipTimeout, silentOver33, and_assoc]
  · show execGapError p s = _
    simp [execGapError, unfinishedFrame, filling, show frameIsComplete s.pool[(b : Nat)].bytes = false from short,
      silentOver33, dropFilling]
  · show execRateChangeApply p s = _
    cases p <;> simp [execRateChangeApply, setRx, State.rx, committedRate]

/-- Settles O9: a frame still being filled meets the character with nothing completed before it. -/
theorem charactersInFilling : Obligations.CharactersInFilling := by
  intro s p b a x hears filling short
  have plain := completeFrame_unfinished p s b a filling short
  have stays : ((restartSilence p s).rx p).assembler = .filling b a := by rw [restartSilence_assembler, filling]
  refine ⟨?_, ?_, fun m => ?_⟩ <;> rw [exec_receiveCharacter hears plain]
  · show Host.Outcome.next (takePlain p x (restartSilence p s)) = _
    have longer : (s.pool[b].bytes ++ [x]).length = 5 ↔ s.pool[b].bytes.length = 4 := by simp
    unfold takePlain
    rw [stays]
    dsimp only
    unfold appendByte
    simp only [restartSilence_pool, longer, dropFilling]
    exact apply_ite _ _ _ _
  · simp [receive, takeCharacter, takeMarker, stays, dropFilling]
  · simp [receive, takeCharacter, takeBad, stays, dropFilling]

/-! ### A completed frame (R14) -/

theorem completeFrame_standing {p : Port} {b : BufferId} {a : Address} {s : State} (h : FrameStands p b a s) :
    completeFrame p s = (if checkAgrees s.pool[b].bytes = true then acceptFrame p b a (setAssembler p .idle s)
      else rejectFrame p b (setAssembler p .idle s)) := by
  obtain ⟨filling, complete⟩ := h
  have found : completedFrame p s = some (b, a) := by
    unfold completedFrame
    rw [filling]
    exact if_pos complete
  unfold completeFrame
  rw [found]
  cases p <;> rfl

theorem acceptFrame_idle (p : Port) (b : BufferId) (a : Address) (s : State) :
    acceptFrame p b a (setAssembler p .idle s) = dispatchFrame p b a (arrived p b s) := by
  cases p <;> rfl

theorem arrived_bytes (p : Port) (b : BufferId) (s : State) : (arrived p b s).pool[b].bytes = s.pool[b].bytes := by
  cases p <;> simp [arrived]

/-- A completed frame whose check agrees is dispatched on its arrival (R14, R7). -/
theorem exec_frameComplete_valid {p : Port} {b : BufferId} {a : Address} {s : State} (h : FrameStands p b a s)
    (good : checkAgrees s.pool[b].bytes = true) :
    exec (.frameComplete p) s = .next (dispatchFrame p b a (arrived p b s)) := by
  show Host.Outcome.next (completeFrame p s) = _
  rw [completeFrame_standing h, if_pos good, acceptFrame_idle]

/-- Settles O10: a valid frame goes where `dispatchFrame` sends it. -/
theorem frameCompletionRule : Obligations.FrameCompletionRule := by
  refine ⟨fun s p b a h => ⟨fun bad => ?_, fun good => ⟨fun routed => ?_, ?_⟩⟩, fun s p b h good command => ?_⟩
  · show Host.Outcome.next (completeFrame p s) = _
    rw [completeFrame_standing h, if_neg (Bool.eq_false_iff.mp bad)]
    rfl
  · rw [exec_frameComplete_valid h good]
    cases a with
    | management => exact absurd rfl routed
    | own | broadcast | other => rfl
  · rintro rfl noCommand
    rw [exec_frameComplete_valid h good, dispatchFrame, arrived_bytes, if_neg (by simpa using noCommand)]
    rfl
  · rw [exec_frameComplete_valid h good, dispatchFrame, arrived_bytes, if_pos (beq_iff_eq.mpr command)]
    simp only [handToManagement, arrived_bytes]

/-! ### The check of a sent frame (R4, R5) -/

theorem length_withCheck (body : List Byte) : (withCheck body).length = body.length + 2 := by
  simp [withCheck, be16]

theorem byteAt_withCheck {body : List Byte} {i : Nat} (h : i < body.length) :
    byteAt (withCheck body) i = byteAt body i := by
  simp [byteAt, withCheck, List.getD, List.getElem?_append_left h]

/-- A body whose byte 4 gives its length makes a whole frame with its check, and the body stands in it. -/
theorem withCheck_frame {body : List Byte} (h : body.length = 5 + frameLength body) :
    frameIsComplete (withCheck body) = true ∧ checkAgrees (withCheck body) = true ∧
    framePayload (withCheck body) = body.drop 5 := by
  have length : frameLength (withCheck body) = frameLength body := by
    rw [frameLength, byteAt_withCheck (by omega), frameLength]
  have whole := length_withCheck body
  refine ⟨?_, ?_, ?_⟩
  · simp only [frameIsComplete, length, whole, Bool.and_eq_true, decide_eq_true_eq, beq_iff_eq]
    omega
  · unfold checkAgrees
    rw [length, ← h]
    simp [withCheck]
  · unfold framePayload
    rw [length, withCheck, List.drop_append_of_le_length (by omega)]
    exact List.take_left' (by rw [List.length_drop]; omega)

/-- The body of a received frame as sent: as long as byte 4 says, control bit 2 clear (R4). -/
def sentBody (bs : List Byte) : List Byte := (bs.take (5 + frameLength bs)).set 1 (byteAt bs 1 &&& 0xFB#8)

theorem bytesAsSent_eq (bs : List Byte) : bytesAsSent bs = withCheck (sentBody bs) := rfl

theorem sentBody_length {bs : List Byte} (h : frameIsComplete bs = true) :
    (sentBody bs).length = 5 + frameLength bs := by
  simp only [frameIsComplete, Bool.and_eq_true, decide_eq_true_eq, beq_iff_eq] at h
  rw [sentBody, List.length_set, List.length_take]
  omega

theorem byteAt_sentBody {bs : List Byte} (h : frameIsComplete bs = true) {i : Nat} (hi : i < 5 + frameLength bs) :
    byteAt (sentBody bs) i = if i = 1 then byteAt bs 1 &&& 0xFB#8 else byteAt bs i := by
  have length := sentBody_length h
  rw [sentBody, List.length_set] at length
  unfold byteAt sentBody
  rw [List.getD_eq_getElem?_getD, List.getElem?_set, length]
  by_cases one : i = 1
  · rw [if_pos one.symm, if_pos (one ▸ hi), if_pos one]
    rfl
  · rw [if_neg (Ne.symm one), if_neg one, List.getElem?_take, if_pos hi]
    rfl

/-- Settles O11: both kinds of frame are a body of the length in byte 4, with its check. -/
theorem sentFramesCarryTheirCheck : Obligations.SentFramesCarryTheirCheck := by
  refine ⟨fun station topic tag control payload short => ?_, fun bs complete => ?_⟩
  · exact withCheck_frame (body := [station, byte control, topic, tag, byte payload.length] ++ payload) (by
      have : frameLength ([station, byte control, topic, tag, byte payload.length] ++ payload) = payload.length :=
        byte_toNat _ (by omega)
      rw [this, List.length_append]
      rfl)
  · have byteSent : ∀ i, i < 5 + frameLength bs → byteAt (bytesAsSent bs) i =
        if i = 1 then byteAt bs 1 &&& 0xFB#8 else byteAt bs i := by
      intro i hi
      rw [bytesAsSent_eq, byteAt_withCheck (by rwa [sentBody_length complete]), byteAt_sentBody complete hi]
    have control : byteAt (bytesAsSent bs) 1 = byteAt bs 1 &&& 0xFB#8 := by rw [byteSent 1 (by omega), if_pos rfl]
    have length : frameLength (sentBody bs) = frameLength bs :=
      congrArg BitVec.toNat (byteAt_sentBody complete (i := 4) (by omega))
    obtain ⟨whole, good, -⟩ := withCheck_frame (body := sentBody bs) (by rw [sentBody_length complete, length])
    refine ⟨whole, good, ?_, fun i small other => ?_, fun i hi other => ?_⟩
    · rw [control, BitVec.getLsbD_and]
      exact Bool.and_false _
    · rw [control, BitVec.getLsbD_and]
      have kept : ∀ j : Fin 8, j ≠ 2 → (0xFB#8).getLsbD j = true := by decide
      rw [kept ⟨i, small⟩ (by simpa [Fin.ext_iff] using other), Bool.and_true]
    · rw [byteSent i hi, if_neg other]

end Sys2Proof.Machine
end

section
/-! SUPPORT. What the router makes of a frame: Forward and Answer (O15), retries and unsolicited Replies (O16), host
Replies (O17) and the default handling (O18). -/

namespace Sys2Proof.Machine

/-! ### Kinds of frames -/

theorem not_host_of_ownRequest {f : RoutedFrame} (h : f.isOwnRequest = true) : f.source ≠ .host := by
  simp only [RoutedFrame.isOwnRequest, Bool.and_eq_true, beq_iff_eq] at h
  rw [h.1.1]
  decide

theorem not_ownRequest_of_broadcastRequest {f : RoutedFrame} (h : f.isBroadcastRequest = true) :
    f.isOwnRequest = false := by
  simp only [RoutedFrame.isBroadcastRequest, Bool.and_eq_true, beq_iff_eq] at h
  simp [RoutedFrame.isOwnRequest, h.2]

theorem not_host_of_broadcastRequest {f : RoutedFrame} (h : f.isBroadcastRequest = true) : f.source ≠ .host := by
  simp only [RoutedFrame.isBroadcastRequest, Bool.and_eq_true, beq_iff_eq] at h
  rw [h.1.1]
  decide

theorem host_of_hostReply {f : RoutedFrame} (h : f.isHostReply = true) : f.source = .host := by
  simp only [RoutedFrame.isHostReply, Bool.and_eq_true, beq_iff_eq] at h
  exact h.1

theorem not_hostReply_of_field {f : RoutedFrame} (h : f.source ≠ .host) : f.isHostReply = false := by
  simp [RoutedFrame.isHostReply, h]

/-- A frame that is neither an own Request nor a host Reply goes to lookup (R34 to R36). -/
theorem goesToLookup_other {f : RoutedFrame} (s : State) (own : f.isOwnRequest = false)
    (reply : f.isHostReply = false) : GoesToLookup f s :=
  ⟨reply, fun h => by simp [own] at h⟩

theorem goesToLookup_broadcast {f : RoutedFrame} (s : State) (h : f.isBroadcastRequest = true) : GoesToLookup f s :=
  goesToLookup_other s (not_ownRequest_of_broadcastRequest h) (not_hostReply_of_field (not_host_of_broadcastRequest h))

/-! ### Forward of an own Request (R40, R51, R58) -/

theorem exchangeFor_some {tag : Byte} {s : State} {e : ExchangeId}
    (h : lateWith tag s = some e ∨ (lateWith tag s = none ∧ freeExchange s = some e)) : exchangeFor tag s = some e := by
  unfold exchangeFor
  rcases h with late | ⟨none, free⟩
  · rw [late]
    rfl
  · rw [none, free]
    rfl

/-- An opened exchange is one entry and what is counted of it (R51). -/
theorem openExchange_eq (i : ExchangeId) (tag topic : Byte) (t : Instant) (s : State) :
    openExchange i tag topic t s = { s with
      exchanges := s.exchanges.set i
        (.waiting ⟨tag, topic, t.ms, t.ms + BitVec.ofNat 32 (settings s).hostAnswerLimit.toNat, 0⟩)
      counters := (openExchange i tag topic t s).counters } := by
  unfold openExchange
  dsimp only
  split <;> rfl

theorem forwardRequest_opened {f : RoutedFrame} {s : State} {e : ExchangeId} (entry : exchangeFor f.tag s = some e)
    (room : s.hostPort.queue.length < 16) :
    forwardRequest f s = openExchange e f.tag f.topic f.arrival (enqueueHost f.buffer s) := by
  unfold forwardRequest
  rw [entry]
  exact if_pos ((hostQueueRoom_iff s).2 room)

theorem forwardRequest_full {f : RoutedFrame} {s : State}
    (h : 16 ≤ s.hostPort.queue.length ∨ (lateWith f.tag s = none ∧ freeExchange s = none)) :
    forwardRequest f s = exchangeFull f s := by
  unfold forwardRequest
  cases entry : exchangeFor f.tag s with
  | none => rfl
  | some e =>
    refine if_neg fun room => ?_
    rcases h with full | ⟨late, free⟩
    · have := (hostQueueRoom_iff s).1 room
      omega
    · simp [exchangeFor, late, free] at entry

/-- An own Request that an entry wins is carried out by the entry's action; no feed follows (R38, R46). -/
theorem routeFrame_ownRequest_won {f : RoutedFrame} {s : State} {i : RouteId} (own : f.isOwnRequest = true)
    (look : GoesToLookup f s) (winner : lookup f s = some i) :
    routeFrame f s = routeAction s.tables.route.live[i] f (won i s) := by
  rw [routeFrame_won f s i look winner]
  exact if_neg fun feeds => not_host_of_ownRequest own feeds.2

theorem routeFrame_broadcast_won {f : RoutedFrame} {s : State} {i : RouteId} (broadcast : f.isBroadcastRequest = true)
    (winner : lookup f s = some i) : routeFrame f s = routeAction s.tables.route.live[i] f (won i s) := by
  rw [routeFrame_won f s i (goesToLookup_broadcast s broadcast) winner]
  exact if_neg fun feeds => not_host_of_broadcastRequest broadcast feeds.2

theorem forwardBroadcast_eq (f : RoutedFrame) (s : State) :
    forwardBroadcast f s = if s.hostPort.queue.length < 16 then enqueueHost f.buffer s
      else releaseBuffer f.buffer (bump Ctr.routingRefusedBroadcasts s) := by
  simp [forwardBroadcast, hostQueueRoom]

/-- Settles O15: the winner's action by the kind of the frame. -/
theorem forwardRequestRule : Obligations.ForwardRequestRule := by
  refine ⟨fun f s i e own look winner action room entry => ?_, fun f s i own look winner action full => ?_,
    fun f s i own look winner action => ?_, fun f s i broadcast winner action => ?_,
    fun f s i own broadcast reply winner action => ?_⟩
  · refine ⟨_, rfl, ?_⟩
    rw [routeFrame_ownRequest_won own look winner, routeAction, action]
    dsimp only
    rw [routeForward, if_pos own, forwardRequest_opened (s := won i s) (exchangeFor_some entry) room,
      openExchange_eq]
    refine ⟨rfl, ?_, rfl, rfl, rfl⟩
    simp [enqueueHost]
  · rw [routeFrame_ownRequest_won own look winner, routeAction, action]
    dsimp only
    rw [routeForward, if_pos own, forwardRequest_full (s := won i s) full]
    rfl
  · rw [routeFrame_ownRequest_won own look winner, routeAction, action]
    exact if_pos own
  · rw [routeFrame_broadcast_won broadcast winner, routeAction, action]
    dsimp only
    rw [routeForward, not_ownRequest_of_broadcastRequest broadcast, broadcast]
    exact forwardBroadcast_eq f (won i s)
  · rw [routeFrame_won f s i (goesToLookup_other s own reply) winner]
    simp only [routeAction, action, routeForward, own, broadcast, reply, dropUnforwardable, Bool.false_eq_true, if_false]

/-! ### Retries and host Replies (R35, R36) -/

theorem routeFrame_ownRequest {f : RoutedFrame} (own : f.isOwnRequest = true) (s : State) :
    routeFrame f s = routeOwnRequest f s :=
  if_pos own

theorem routeFrame_hostReply {f : RoutedFrame} (reply : f.isHostReply = true) (s : State) :
    routeFrame f s = routeHostReply f s := by
  rw [routeFrame, isOwnRequest_of_hostReply f reply, reply]
  rfl

theorem routeFrame_waitingReply {f : RoutedFrame} {s : State} {e : ExchangeId} (reply : f.isHostReply = true)
    (own : f.own = true) (waiting : waitingWith f.tag s = some e) : routeFrame f s = routeByLookup f (some e) s := by
  rw [routeFrame_hostReply reply, routeHostReply, if_pos own, waiting]

theorem routeFrame_lateReply {f : RoutedFrame} {s : State} {e : ExchangeId} {r : Request} {hold : Timer}
    (reply : f.isHostReply = true) (own : f.own = true) (waiting : waitingWith f.tag s = none)
    (late : lateWith f.tag s = some e) (entry : s.exchanges[e] = .late r hold) :
    routeFrame f s = routeLate f r s := by
  rw [routeFrame_hostReply reply, routeHostReply, if_pos own, waiting, late]
  dsimp only
  rw [entry]

/-- Settles O16. -/
theorem retriesAndUnsolicitedReplies : Obligations.RetriesAndUnsolicitedReplies := by
  refine ⟨fun f s e r own noKeyList waiting entry => ?_, fun f s reply unmatched => ?_⟩
  · rw [routeFrame_ownRequest own, routeOwnRequest, noKeyList, waiting]
    simp only [Bool.false_eq_true, if_false, absorbRetry]
    rw [entry]
  · rw [routeFrame_hostReply reply, routeHostReply]
    rcases unmatched with other | ⟨waiting, late⟩
    · rw [other]
      rfl
    · rw [waiting, late]
      exact ite_self _

theorem forwardReply_eq (f : RoutedFrame) (s : State) :
    forwardReply f s = if s.fieldPort.queue.length < 16 then enqueueFieldBuffer f.buffer s
      else releaseBuffer f.buffer (bump Ctr.droppedForwardedReplies s) := by
  simp [forwardReply, fieldQueueRoom]

theorem routeCapture_hostReply {f : RoutedFrame} (reply : f.isHostReply = true) (e : RouteEntry) (s : State) :
    routeCapture e f s = if e.capture = true then capture f.topic f.payload f.arrival s else s := by
  simp [routeCapture, reply]

/-- The action on a host Reply is a Drop or a Forward to the field; a commit admits no Answer for it (R42, R44). -/
theorem routeAction_hostReply {f : RoutedFrame} (reply : f.isHostReply = true) {e : RouteEntry}
    (noAnswer : e.action ≠ .answer) (s : State) :
    routeAction e f s = if e.action = .drop then routeDrop f s else forwardReply f s := by
  unfold routeAction
  cases action : e.action with
  | forward =>
    simp [routeForward, isOwnRequest_of_hostReply f reply, isBroadcastRequest_of_hostReply f reply, reply]
  | drop => rfl
  | answer => exact absurd action noAnswer

theorem defaultHandling_hostReply {f : RoutedFrame} (reply : f.isHostReply = true) (s : State) :
    defaultHandling f s = forwardReply f s := by
  simp [defaultHandling, isOwnRequest_of_hostReply f reply, isBroadcastRequest_of_hostReply f reply, reply]

theorem capture_fieldPort' (f : RoutedFrame) (i : RouteId) (s : State) :
    (if s.tables.route.live[i].capture = true then capture f.topic f.payload f.arrival (won i s)
      else won i s).fieldPort = s.fieldPort := by
  split
  · exact capture_fieldPort ..
  · rfl

/-- The lookup of a Late-matched Reply: the winner's hit and capture (R45). -/
def lateLookup (f : RoutedFrame) (s : State) : State :=
  match lookup f s with
  | some i => routeCapture s.tables.route.live[i] f (hit i s)
  | none => s

theorem lateLookup_keeps (f : RoutedFrame) (s : State) :
    (lateLookup f s).exchanges = s.exchanges ∧ (lateLookup f s).flags = s.flags ∧ (lateLookup f s).live = s.live ∧
    (lateLookup f s).fieldPort = s.fieldPort ∧ (lateLookup f s).hostPort = s.hostPort ∧
    (lateLookup f s).noticeNo = s.noticeNo := by
  unfold lateLookup
  cases lookup f s with
  | none => exact ⟨rfl, rfl, rfl, rfl, rfl, rfl⟩
  | some i => simp [hit]

theorem routeLate_eq (f : RoutedFrame) (r : Request) (s : State) :
    routeLate f r s = composeNotice 0xC2
      ([r.tag, r.topic] ++ be16 (min 65535 (f.arrival.ms - r.openTime).toNat))
      (reportLateReply (bump Ctr.exchangesLateReplies (releaseBuffer f.buffer (lateLookup f s)))) :=
  rfl

/-- Settles O17: a Waiting match is a lookup whose exchange ends after the action, a Late match keeps only the
winner's hit and capture. -/
theorem hostReplyRule : Obligations.HostReplyRule := by
  refine ⟨fun f s i e reply own waiting winner noAnswer => ?_, fun f s e reply own waiting none => ?_,
    fun f s e r hold reply own waiting late entry => ?_⟩
  · rw [routeFrame_waitingReply reply own waiting, routeByLookup_won f (some e) s i winner]
    dsimp only
    rw [routeAction_hostReply reply noAnswer, routeCapture_hostReply reply, forwardReply_eq, capture_fieldPort',
      routeFeed_eq]
    simp only [host_of_hostReply reply, and_true]
    rfl
  · rw [routeFrame_waitingReply reply own waiting, routeByLookup_default f (some e) s none,
      defaultHandling_hostReply reply, forwardReply_eq]
    rfl
  · intro looked freed counted
    have lookedUp : looked = lateLookup f s := by
      dsimp only [looked, lateLookup]
      cases lookup f s with
      | none => rfl
      | some i => exact (routeCapture_hostReply reply _ _).symm
    obtain ⟨exchanges, flags, live, fieldPort, hostPort, noticeNo⟩ := lateLookup_keeps f s
    have freedLive : freed.live = s.live := (releaseBuffer_live ..).trans (lookedUp ▸ live)
    have count : counted =
        reportLateReply (bump Ctr.exchangesLateReplies (releaseBuffer f.buffer (lateLookup f s))) := by
      rw [← lookedUp]
      dsimp only [counted]
      rw [← freedLive]
      rfl
    refine ⟨_, rfl, ?_⟩
    rw [routeFrame_lateReply reply own waiting late entry, routeLate_eq, ← count]
    refine ⟨rfl, ?_, ?_, ?_, ?_, fun silent => ?_⟩
    · simp [count, exchanges]
    · simp [count, flags]
    · rw [composeNotice_live]
      dsimp only [counted]
      rw [← freedLive]
      rfl
    · simp [count, fieldPort]
    · have noNotice : counted.live.state.composesNotices = false := by
        dsimp only [counted]
        rw [← silent, ← freedLive]
        rfl
      have down : hostUp (lateLookup f s) = false := by
        rw [hostUp, live]
        exact isHostUp_of_composesNotices _ silent
      rw [composeNotice, if_neg (by simp [noNotice]), count, releaseBuffer_of_host_down _ _ down]
      simp [setBuffer, hostPort, noticeNo]

/-! ### Default handling (R39) and the key-list reply (R34, R70) -/

/-- A frame that no entry wins, with no exchange to end, takes the default handling (R37). -/
theorem routeFrame_default {f : RoutedFrame} {s : State} (look : GoesToLookup f s) (none : lookup f s = none) :
    routeFrame f s = defaultHandling f s := by
  rw [routeFrame_lookup f s look, routeByLookup_default f _ s none]
  rfl

theorem defaultHandling_ownRequest {f : RoutedFrame} (own : f.isOwnRequest = true) (s : State) :
    defaultHandling f s = if hostUp s = true then forwardRequest f s
      else releaseBuffer f.buffer (offerBareReply f.topic f.tag ⟨false, true, false, true⟩
        (bump Ctr.routingDefaultEmptyReplies s)) :=
  if_pos own

theorem offerReply_room {s : State} (room : s.fieldPort.queue.length < 16) (d : Descriptor) :
    offerReply d s = enqueueReply d s :=
  if_pos (by simpa [fieldQueueRoom] using room)

theorem FieldKeyList.copied_pending (l : FieldKeyList) (n : Nat) :
    (l.copied n).filter (fun e => e.mark == .pending) = [] := by
  rw [List.filter_eq_nil_iff]
  intro e he
  obtain ⟨x, -, rfl⟩ := List.mem_map.1 he
  split
  · simp
  · assumption

theorem FieldKeyList.copied_contents (l : FieldKeyList) (n : Nat) :
    (l.copied n).map (fun e => (e.code, e.stamp)) = l.events.map (fun e => (e.code, e.stamp)) := by
  unfold FieldKeyList.copied
  rw [List.map_map]
  apply List.map_congr_left
  intro e _
  dsimp only [Function.comp]
  split <;> rfl

/-- Settles O18: the default handling by the kind of the frame, and the copy of the Field Key List. -/
theorem repliesWhileHostIsDown : Obligations.RepliesWhileHostIsDown := by
  refine ⟨fun f s own look none down room => ?_, fun f s own keyList room => ?_,
    fun f s own look none up => ⟨fun e room entry => ?_, fun full => ?_⟩, fun f s broadcast none => ?_,
    fun f s own broadcast reply none => ?_⟩
  · refine ⟨_, rfl, ?_⟩
    rw [routeFrame_default look none, defaultHandling_ownRequest own, if_neg (by simp [down]), offerBareReply,
      offerReply_room (s := bump _ s) room, releaseBuffer_of_host_down _ _ (by exact down)]
    exact ⟨rfl, rfl, rfl, rfl, rfl, rfl, rfl⟩
  · have down : hostUp s = false := by
      simp only [isKeyListRequest, Bool.and_eq_true, Bool.not_eq_true'] at keyList
      exact keyList.2
    refine ⟨_, rfl, ?_⟩
    rw [routeFrame_ownRequest own, routeOwnRequest, if_pos keyList, answerKeyList]
    dsimp only [copyKeyList]
    rw [offerReply_room (by exact room), releaseBuffer_of_host_down _ _ (by exact down)]
    exact ⟨rfl, rfl, s.keyList.copied_pending _, s.keyList.copied_contents _, rfl, rfl, rfl, rfl⟩
  · refine ⟨_, rfl, ?_⟩
    rw [routeFrame_default look none, defaultHandling_ownRequest own, if_pos up,
      forwardRequest_opened (exchangeFor_some entry) room, openExchange_eq]
    refine ⟨rfl, ?_, rfl, rfl⟩
    simp [enqueueHost]
  · rw [routeFrame_default look none, defaultHandling_ownRequest own, if_pos up, forwardRequest_full full, exchangeFull,
      hostDown, up]
    rfl
  · rw [routeFrame_default (goesToLookup_broadcast s broadcast) none, defaultHandling,
      not_ownRequest_of_broadcastRequest broadcast, broadcast, forwardBroadcast_eq]
    cases hostUp s <;> rfl
  · rw [routeFrame_default (goesToLookup_other s own reply) none]
    simp only [defaultHandling, own, broadcast, reply, defaultDrop, Bool.false_eq_true, if_false]

end Sys2Proof.Machine
end

section
/-! SUPPORT. Composed replies and captures (O19, O20), transmission (O22, O23, O24), notices (O25) and the timers of an
exchange (O26). -/

namespace Sys2Proof.Machine

/-! ### Composed replies (R62, R58) -/

/-- The flags of a reply that reads no half: busy on the exchange-full path, empty otherwise (R58, R62). -/
def flagsWithoutHalf (purpose : ReplyPurpose) (h : Bool) : ReplyFlags :=
  if purpose = .exchangeFull then ⟨true, false, false, h⟩ else ⟨false, true, false, h⟩

/-- A reply without a payload source joins the Field Transmit Queue that has room. -/
theorem offerBareReply_room {s : State} (room : s.fieldPort.queue.length < 16) (topic tag : Byte) (f : ReplyFlags) :
    offerBareReply topic tag f s = { s with fieldPort := { s.fieldPort with
      queue := s.fieldPort.queue ++ [.reply ⟨ownStation s, topic, tag, f, .nothing⟩] } } :=
  offerReply_room room _

theorem noHalfReply_room {s : State} (room : s.fieldPort.queue.length < 16) (purpose : ReplyPurpose)
    (topic tag : Byte) (h : Bool) :
    noHalfReply purpose topic tag h s = { s with
      fieldPort := { s.fieldPort with queue := s.fieldPort.queue ++
        [.reply ⟨ownStation s, topic, tag, flagsWithoutHalf purpose h, .nothing⟩] }
      counters := (noHalfReply purpose topic tag h s).counters } := by
  unfold noHalfReply flagsWithoutHalf
  cases purpose <;> dsimp only <;> rw [offerBareReply_room (by exact room)] <;> rfl

/-- The descriptor of a reply that references the active half (R62). -/
def halfDescriptor (e : ProxyId) (topic tag : Byte) (h : Bool) (t : Instant) (s : State) : Descriptor :=
  ⟨ownStation s, topic, tag,
    ⟨false, false, isStale s.tables.proxy.live[e].maxAge (s.proxy[e].get s.proxy[e].active).stamp t, h⟩,
    .half e s.proxy[e].active⟩

theorem proxyReply_room {s : State} (room : s.fieldPort.queue.length < 16) (e : ProxyId) (topic tag : Byte) (h : Bool)
    (t : Instant) :
    proxyReply e topic tag h t s = { pinHalf e s.proxy[e].active s with
      fieldPort := { s.fieldPort with queue := s.fieldPort.queue ++ [.reply (halfDescriptor e topic tag h t s)] }
      counters := (proxyReply e topic tag h t s).counters } := by
  have offered : proxyReply e topic tag h t s = enqueueReply (halfDescriptor e topic tag h t s)
      (if isStale s.tables.proxy.live[e].maxAge (s.proxy[e].get s.proxy[e].active).stamp t = true then
        bump Ctr.proxyStaleReplies (bump Ctr.proxyProxyReplies (pinHalf e s.proxy[e].active s))
      else bump Ctr.proxyProxyReplies (pinHalf e s.proxy[e].active s)) :=
    offerReply_room (by split <;> exact room) _
  rw [offered]
  split <;> rfl

theorem isStale_iff (maxAge : Half) (stamp : Word) (t : Instant) :
    isStale maxAge stamp t = true ↔ maxAge ≠ 0 ∧ maxAge.toNat < elapsed stamp t.sec := by
  simp [isStale]

/-- Settles O19: a reply of each kind joins a queue with room, and a refused one is undone by its source. -/
theorem composedReplyRule : Obligations.ComposedReplyRule := by
  refine ⟨fun s purpose topic tag h now room => ?_, fun s d full => ?_⟩
  · have h' : (flagsWithoutHalf purpose h).h = h := by cases purpose <;> rfl
    unfold composeReply
    cases entry : proxyFor topic s with
    | none =>
      refine ⟨⟨ownStation s, topic, tag, flagsWithoutHalf purpose h, .nothing⟩, _, rfl, rfl, rfl, rfl, h', ?_⟩
      rw [noHalfReply_room room]
      exact ⟨rfl, ⟨rfl, rfl, rfl⟩, rfl⟩
    | some e =>
      dsimp only
      by_cases filled : (s.proxy[e].get s.proxy[e].active).filled = true
      · rw [if_pos filled]
        by_cases pinnable : (s.proxy[e].get s.proxy[e].active).pins < 16
        · rw [if_pos pinnable]
          refine ⟨halfDescriptor e topic tag h now s, _, rfl, rfl, rfl, rfl, rfl, ?_⟩
          rw [if_neg (by simpa using filled), if_pos pinnable, proxyReply_room room]
          exact ⟨rfl, ⟨rfl, rfl, rfl, isStale_iff .., rfl⟩, rfl⟩
        · rw [if_neg pinnable]
          refine ⟨⟨ownStation s, topic, tag, ⟨true, false, false, h⟩, .nothing⟩, _, rfl, rfl, rfl, rfl, rfl, ?_⟩
          rw [if_neg (by simpa using filled), if_neg pinnable, offerBareReply_room (by exact room)]
          exact ⟨rfl, ⟨rfl, rfl, rfl⟩, rfl⟩
      · rw [if_neg filled]
        refine ⟨⟨ownStation s, topic, tag, flagsWithoutHalf purpose h, .nothing⟩, _, rfl, rfl, rfl, rfl, h', ?_⟩
        rw [if_pos (by simpa using filled), noHalfReply_room room]
        exact ⟨rfl, ⟨rfl, rfl, rfl⟩, rfl⟩
  · have refused : offerReply d s = undoDescriptor d (bump Ctr.droppedComposedReplies s) :=
      if_neg (by simpa [fieldQueueRoom] using full)
    refine ⟨_, rfl, ?_⟩
    rw [refused]
    refine ⟨by simp, by simp, fun e h source => ?_, fun n evs o source => ?_⟩
    · rw [undoDescriptor, source]
      rfl
    · rw [undoDescriptor, source]
      refine ⟨fun e he => ?_, ?_, rfl⟩
      · obtain ⟨x, -, rfl⟩ := List.mem_map.1 he
        split
        · exact fun same => nomatch same
        · rename_i other
          simpa using other
      · simp only [undoKeyList, List.map_map]
        apply List.map_congr_left
        intro e _
        dsimp only [Function.comp]
        split <;> rfl

/-- Settles O20. -/
theorem captureRule : Obligations.CaptureRule := by
  intro s topic payload now
  unfold capture
  cases proxyFor topic s with
  | none => rfl
  | some e =>
    simp only [inactivePinned, decide_eq_true_eq]
    rfl

/-! ### Characters on the line (R2) -/

theorem onLine_data (bs : List Byte) : (onLine bs).map (·.data) = bs := by
  cases bs with
  | nil => rfl
  | cons b bs => simp [onLine, Function.comp_def]

theorem onLine_stop (bs : List Byte) : ∀ x ∈ onLine bs, x.stop = true := by
  cases bs with
  | nil => simp [onLine]
  | cons b bs => simp [onLine]

theorem onLine_marker {bs : List Byte} (h : bs ≠ []) :
    (onLine bs).map (·.marker) = true :: List.replicate (bs.length - 1) false := by
  cases bs with
  | nil => exact absurd rfl h
  | cons b bs => simp [onLine, Function.comp_def]

theorem bytesAsSent_ne_nil (bs : List Byte) : bytesAsSent bs ≠ [] := by
  apply List.ne_nil_of_length_pos
  rw [bytesAsSent_eq, length_withCheck]
  omega

/-- Settles O22. -/
theorem hostTransmitStartRule : Obligations.HostTransmitStartRule := by
  intro s b rest idle head
  refine ⟨?_, onLine_data _, onLine_stop _, onLine_marker (bytesAsSent_ne_nil _)⟩
  show execHostTransmitStart s = _
  rw [execHostTransmitStart, idle, head]
  rfl

/-- Settles O23: the quiet line lets the head start, whose bytes are those of `itemBytes`. -/
theorem fieldTransmitStartRule : Obligations.FieldTransmitStartRule := by
  intro s i rest idle head unfilled quiet silence
  have mayStart : fieldMayStart s = true := by
    unfold fieldMayStart silentFor22 isFilling
    cases assembler : (s.rx .field).assembler with
    | filling b a => exact absurd assembler (unfilled b a)
    | idle | skipping => simp [quiet, silence]
  have start : exec .fieldTransmitStart s = .next (startFieldSending i rest s) := by
    show execFieldTransmitStart s = _
    rw [execFieldTransmitStart, idle, head]
    exact congrArg _ (if_pos mayStart)
  refine ⟨_, start, rfl, ?_⟩
  cases i with
  | buffer b => exact ⟨rfl, rfl, rfl⟩
  | reply d =>
    refine ⟨?_, rfl, rfl⟩
    have control : ∀ b e st h : Nat, 1 + 8 * b + 16 * e + 32 * st + 64 * h + 128 =
        0x81 + 8 * b + 16 * e + 32 * st + 64 * h := by
      intros
      omega
    simp only [startFieldSending, itemBytes, descriptorBytes, markSending, control]
    cases d.source <;> rfl

/-- Settles O24: the item that has been sent says what is released. -/
theorem transmissionEndReleases : Obligations.TransmissionEndReleases := by
  refine ⟨fun s x sending noReset => ?_, fun s x sending => ?_⟩
  · show execTransmissionComplete .host s = _
    simp [execTransmissionComplete, sending, finishHost, noReset]
  · have ends : exec (.transmissionComplete .field) s = .next (finishField x.item s) := by
      show execTransmissionComplete .field s = _
      simp [execTransmissionComplete, sending]
    have port : (finishField x.item s).fieldPort = { s.fieldPort with
        sending := none, rx := { s.fieldPort.rx with assembler := .idle, busy := false, silence := 0 } } := by
      simp [finishField]
    refine ⟨_, ends, by rw [fieldDirection, port]; rfl, by rw [port], by rw [port], fun b item => ?_,
      fun d e h item source => ?_, fun d n evs o item source => ?_⟩
    · rw [port, finishField, item]
      rfl
    · simp only [finishField, item, finishItem, finishDescriptor, source]
      exact ⟨rfl, rfl, rfl⟩
    · simp only [finishField, item, finishItem, finishDescriptor, source]
      exact ⟨rfl, rfl, rfl, rfl, rfl⟩

/-! ### Notices (R17, R167) -/

theorem queueNotice_eq (b : BufferId) (topic : Byte) (payload : List Byte) (s : State) :
    queueNotice b topic payload s = { s with
      pool := s.pool.set b { state := .queued, bytes := frameBytes 255 2 topic s.noticeNo payload }
      hostPort := { s.hostPort with queue := s.hostPort.queue ++ [b] }
      noticeNo := s.noticeNo + 1 } := by
  simp [queueNotice, enqueueHost, setBuffer]

theorem composesNotices_iff (l : Liveness) : l.composesNotices = true ↔ l ∈ [Liveness.booting, .running, .warned] := by
  cases l <;> simp [Liveness.composesNotices]

/-- Some Free buffer is claimed where the count says that there is one (R15). -/
theorem firstFree_of_freeCount {s : State} (h : 0 < freeCount s) :
    ∃ b : BufferId, firstFree s = some b ∧ s.pool[b].state = .free := by
  rcases firstFree_spec s with found | ⟨-, none⟩
  · exact found
  · omega

/-- One turn of the composition of KEY notices (R167). -/
theorem composeKeyNotices_ready {s : State} (h : keyNoticeReady s = true) :
    composeKeyNotices s = composeKeyNotices (composeKeyNotice s) := by
  obtain ⟨-, queue, free, -⟩ := (keyNoticeReady_iff s).1 h
  obtain ⟨b, claim, -⟩ := firstFree_of_freeCount free
  obtain ⟨n, length⟩ : ∃ n, s.keyUnit.queue.length = n + 1 :=
    Nat.exists_eq_succ_of_ne_zero (List.length_pos_iff.2 queue).ne'
  have shorter : (composeKeyNotice s).keyUnit.queue.length ≤ n := by
    simp only [composeKeyNotice, claim, queueNotice_eq]
    show (s.keyUnit.queue.drop 8).length ≤ n
    rw [List.length_drop]
    omega
  rw [← keyNoticeTurns_enough n _ shorter, composeKeyNotices, length, keyNoticeTurns, if_pos h]

/-- Settles O25: a turn of the KEY composition, and the three ways of every other notice. -/
theorem keyNoticeRule : Obligations.KeyNoticeRule := by
  refine ⟨fun s => ⟨fun fails => ?_, fun up queue free room => ?_⟩, fun s topic payload =>
    ⟨fun silent => ?_, fun heard full => ?_, fun heard free room => ?_⟩⟩
  · apply composeKeyNotices_of_not_ready
    rw [← Bool.not_eq_true, keyNoticeReady_iff]
    rintro ⟨up, queue, free, room⟩
    rcases fails with down | empty | none | full
    · exact absurd up (by simp [down])
    · exact queue empty
    · omega
    · omega
  · obtain ⟨b, claim, isFree⟩ := firstFree_of_freeCount free
    refine ⟨b, composeKeyNotice s, isFree,
      composeKeyNotices_ready ((keyNoticeReady_iff s).2 ⟨up, queue, free, room⟩), ?_⟩
    unfold composeKeyNotice
    rw [claim]
    dsimp only
    rw [queueNotice_eq]
    exact ⟨rfl, rfl, rfl, rfl, rfl⟩
  · rw [composeNotice, if_neg]
    rwa [composesNotices_iff]
  · rw [composeNotice, if_pos ((composesNotices_iff _).2 heard)]
    rcases full with none | full
    · rcases firstFree_spec s with ⟨b, claim, -⟩ | ⟨noClaim, -⟩
      · have := (firstFree_isSome s).1 (by rw [claim]; rfl)
        omega
      · rw [noClaim]
    · have noRoom : hostQueueRoom s = false := by simpa [hostQueueRoom] using full
      rw [noRoom]
      cases firstFree s <;> rfl
  · obtain ⟨b, claim, isFree⟩ := firstFree_of_freeCount free
    refine ⟨b, isFree, ?_⟩
    rw [composeNotice, if_pos ((composesNotices_iff _).2 heard), claim, (hostQueueRoom_iff s).2 room]
    exact queueNotice_eq ..

/-! ### Timers of an exchange (R54, R56) -/

/-- Settles O26: a Waiting entry at its deadline, a Late one at the end of its lateHold. -/
theorem exchangeTimerRules : Obligations.ExchangeTimerRules := by
  refine ⟨fun s i r waiting => ?_, fun s i r hold late => ?_⟩
  · show execExchangeDeadlineExpiry i s = _
    rw [execExchangeDeadlineExpiry, waiting]
    simp only [deadlineReached, decide_eq_true_eq, expireExchange, waiting]
    exact (apply_ite _ _ _ _).symm
  · show execLateHoldExpiry i s = _
    rw [execLateHoldExpiry, late]
    simp only [Timer.due, decide_eq_true_eq]
    exact (apply_ite _ _ _ _).symm

end Sys2Proof.Machine
end

section
/-! SUPPORT. Moves of liveness, each with what it hands to the other blocks: the timers (O27), the counted restart (O28)
and the uncounted restart and the release (O43). -/

namespace Sys2Proof.Machine

/-! ### What a move hands over (R96, R124) -/

/-- What leaving HostUp does is read from the exchanges, the keys, the Field Port, the halves and their counters. -/
theorem HostUpHandOver.bump_liveness {s t : State} (h : HostUpHandOver s t) (i : Fin 11) :
    HostUpHandOver s (bump (.liveness i) t) :=
  h

theorem HostUpHandOver.leaves {s t : State} (h : HostUpHandOver s t) (up : hostUp s = true)
    (down : hostUp t = false) : LeavesHostUp s t := by
  unfold HostUpHandOver at h
  rwa [if_pos ⟨up, down⟩] at h

/-- A move of a host that is not up hands nothing to the exchanges and the keys (R96). -/
theorem HostUpHandOver.of_down {s t : State} (down : hostUp s = false) (exchanges : t.exchanges = s.exchanges)
    (keyUnit : t.keyUnit = s.keyUnit) (fieldPort : t.fieldPort = s.fieldPort) (proxy : t.proxy = s.proxy)
    (exchangeCount : t.counters.exchanges = s.counters.exchanges) (proxyCount : t.counters.proxy = s.counters.proxy)
    (keyCount : t.counters.keys = s.counters.keys) : HostUpHandOver s t := by
  unfold HostUpHandOver
  rw [if_neg fun h => absurd h.1 (by simp [down])]
  exact ⟨exchanges, keyUnit, fieldPort, proxy, exchangeCount, proxyCount, keyCount⟩

theorem PowerHandOver.of_blocks {s t : State} (off : hostPowerEnable s = false) (on : hostPowerEnable t = true)
    (h : BlocksNotAllowed s t) : PowerHandOver s t := by
  unfold PowerHandOver
  rwa [if_pos ⟨off, on⟩]

theorem PowerHandOver.of_kept {s t : State} (h : hostPowerEnable s = true ∨ hostPowerEnable t = false)
    (heat : t.heat = s.heat) (thermal : t.counters.thermal = s.counters.thermal) : PowerHandOver s t := by
  unfold PowerHandOver
  rw [if_neg]
  · exact ⟨heat, thermal⟩
  · rintro ⟨off, on⟩
    rcases h with h | h
    · simp [off] at h
    · simp [on] at h

theorem not_hostUp_of_unpowered {l : Liveness} (h : l.isPowered = false) : l.isHostUp = false := by
  revert h
  cases l <;> simp [Liveness.isPowered, Liveness.isHostUp]

/-! ### POWERING and COLD HOLD entered by an unpowered host (R79, R80, R108) -/

/-- The Liveness Controller in POWERING (R80, R94). -/
def poweringFrom (t : Instant) (s : State) : LivenessController :=
  { s.live with
    state := .powering, enteredAt := t.sec, bootTime := none
    timer := some ⟨t.ms, (settings s).powerSettle.toNat⟩ }

theorem enterPowering_of_unpowered (t : Instant) {s : State} (off : s.live.state.isPowered = false) :
    enterPowering t s = blockNotAllowed { s with live := poweringFrom t s } := by
  have down := not_hostUp_of_unpowered off
  unfold enterPowering enterState
  simp [off, down, hostPowerOn, poweringFrom, startTimer, show Liveness.powering.isPowered = true from rfl]

/-- POWERING changes the Liveness Controller, the heaters and what is counted of them. -/
theorem enterPowering_eq (t : Instant) {s : State} (off : s.live.state.isPowered = false) :
    enterPowering t s = { s with
      live := poweringFrom t s
      heat := (enterPowering t s).heat
      counters := { s.counters with thermal := (enterPowering t s).counters.thermal } } := by
  rw [enterPowering_of_unpowered t off]
  exact blockNotAllowed_eq _

theorem enterPowering_blocks (t : Instant) {s : State} (off : s.live.state.isPowered = false) :
    BlocksNotAllowed s (enterPowering t s) := by
  rw [enterPowering_of_unpowered t off]
  exact (blockNotAllowed_spec _).of_same rfl rfl

/-- The Liveness Controller and the Temperature Monitor in COLD HOLD (R79, R108). -/
def coldHeld (t : Instant) (s : State) : State :=
  { s with
    live := { s.live with state := .coldHold, enteredAt := t.sec, timer := none }
    temp := { s.temp with
      fallbackStart := some t.ms
      readiness := if coldFallback s = true then .notReady else s.temp.readiness
      dwell := if coldFallback s = true then none else s.temp.dwell } }

/-- An unpowered host that enters COLD HOLD goes on to POWERING where readiness stays Ready and Hot is not raised
(R79, R108). -/
theorem enterColdHold_of_unpowered (t : Instant) {s : State} (off : s.live.state.isPowered = false) :
    enterColdHold t s = if s.temp.readiness = .ready ∧ coldFallback s = false ∧ s.temp.hot = false then
      enterPowering t (coldHeld t s) else coldHeld t s := by
  have held : startFallback t (enterState .coldHold none t s) = coldHeld t s := by
    rw [enterState_plain .coldHold none t s (.inr rfl) (.inl (not_hostUp_of_unpowered off))]
    rfl
  unfold enterColdHold leaveColdHold
  rw [held]
  have stays : (coldHeld t s).temp.readiness = .ready ↔ s.temp.readiness = .ready ∧ coldFallback s = false := by
    show (if coldFallback s = true then Readiness.notReady else s.temp.readiness) = .ready ↔ _
    cases coldFallback s <;> simp
  simp [stays, show (coldHeld t s).live.state = .coldHold from rfl, show (coldHeld t s).temp.hot = s.temp.hot from rfl,
    and_assoc]

/-- What the entry into COLD HOLD of an unpowered host hands over, whatever its Liveness Controller held before. -/
theorem enterColdHold_handOver (t : Instant) {s : State} (l : LivenessController) (off : hostPowerEnable s = false)
    (unpowered : l.state.isPowered = false) :
    PowerHandOver s (enterColdHold t { s with live := l }) ∧
    HostUpHandOver s (enterColdHold t { s with live := l }) := by
  have down : hostUp s = false := not_hostUp_of_unpowered off
  rw [enterColdHold_of_unpowered t unpowered]
  split
  · have held : (coldHeld t { s with live := l }).live.state.isPowered = false := rfl
    have blocks : BlocksNotAllowed s (enterPowering t (coldHeld t { s with live := l })) :=
      (enterPowering_blocks t held).of_same rfl rfl
    rw [enterPowering_eq t held] at blocks ⊢
    exact ⟨.of_blocks off rfl blocks, .of_down down rfl rfl rfl rfl rfl rfl rfl⟩
  · exact ⟨.of_kept (.inr rfl) rfl rfl, .of_down down rfl rfl rfl rfl rfl rfl rfl⟩

/-- Settles O27: each expiry by the move that its state makes. -/
theorem livenessTimerRules : Obligations.LivenessTimerRules := by
  refine ⟨fun s => ⟨?_, ?_⟩, fun s p hp => ?_, fun s => ?_, fun s due => ?_, fun s => ?_⟩
  · rw [hostPowerEnable]
    cases s.live.state <;> simp [Liveness.isPowered]
  · simp [hostReset]
  · have boots : ∀ st : Liveness, st.isPowered = true → st.isHostUp = false → livenessTimerDue st s = true →
        enterBooting s.clock s = { s with live := { s.live with
          state := .booting, enteredAt := s.clock.sec, bootTime := some s.clock,
          timer := some ⟨s.clock.ms, (settings s).bootGrace.toNat * 1000⟩ } } := by
      intro st on down due
      have state := state_of_livenessTimerDue st s due
      unfold enterBooting
      rw [enterState_plain .booting _ _ s (.inl (state ▸ on)) (.inl (state ▸ down))]
      rfl
    simp only [List.mem_cons, List.not_mem_nil, or_false] at hp
    rcases hp with rfl | rfl
    · show execPowerSettleExpiry s = _
      unfold execPowerSettleExpiry
      split
      · rw [boots .powering rfl rfl ‹_›]
      · rfl
    · show execResetPulseExpiry s = _
      unfold execResetPulseExpiry
      split
      · rw [boots .resetting rfl rfl ‹_›]
      · rfl
  · show execWindowMaxExpiry s = _
    unfold execWindowMaxExpiry
    split
    · rw [enterWarned, enterState_warned _ _ s (state_of_livenessTimerDue _ s ‹_›)]
      rfl
    · rfl
  · have off : s.live.state.isPowered = false := by rw [state_of_livenessTimerDue _ s due]; rfl
    have down : hostUp s = false := not_hostUp_of_unpowered off
    have run : exec .cycleOffExpiry s = .next (if s.temp.readiness = .ready ∧ s.temp.hot = false then
        enterPowering s.clock s else enterColdHold s.clock s) := by
      show execCycleOffExpiry s = _
      simp [execCycleOffExpiry, due]
    by_cases goesOn : s.temp.readiness = .ready ∧ s.temp.hot = false
    · refine ⟨_, run, ?_⟩
      simp only [if_pos goesOn]
      have blocks := enterPowering_blocks s.clock off
      rw [enterPowering_eq s.clock off] at blocks ⊢
      exact ⟨⟨rfl, rfl⟩, .of_blocks off rfl blocks, rfl, rfl, rfl, rfl, rfl, rfl⟩
    · refine ⟨_, run, ?_⟩
      simp only [if_neg goesOn]
      have held : enterColdHold s.clock s = coldHeld s.clock s := by
        rw [enterColdHold_of_unpowered s.clock off, if_neg fun h => goesOn ⟨h.1, h.2.2⟩]
      rw [held]
      exact ⟨⟨rfl, rfl, rfl⟩, .of_kept (.inr rfl) rfl rfl, rfl, rfl, rfl, rfl, rfl, rfl⟩
  · show execStopDelayExpiry s = _
    unfold execStopDelayExpiry
    split
    · rename_i due
      have state := state_of_livenessTimerDue _ s due
      have down : (writeLog .hostShutdown .powerOff false s.clock s).live.state.isHostUp = false := by
        rw [writeLog_live, state]
        rfl
      have plain := enterState_plain .off none s.clock _ (.inr rfl) (.inl down)
      rw [finishStop, plain]
      rfl
    · rfl

/-! ### Restarts of a powered host (R86, R90) -/

/-- The end of a powered host's run: the Liveness Controller in its new state, the heaters as they were, and what
leaving HostUp hands over (R75, R96). -/
theorem enterState_powered {s v : State} (st : Liveness) (tm : Option Timer) (now : Instant)
    (powered : hostPowerEnable s = true) (same : SameHandOver s v) (state : v.live.state = s.live.state) :
    (enterState st tm now v).live = { v.live with state := st, enteredAt := now.sec, timer := tm } ∧
    (enterState st tm now v).heat = v.heat ∧
    (enterState st tm now v).keyUnit.records = v.keyUnit.records ∧
    HostUpHandOver s (enterState st tm now v) := by
  have on : v.live.state.isPowered = true := by rw [state]; exact powered
  obtain ⟨live, heat, records, -⟩ := enterState_unpowering st tm now v (.inr on)
  exact ⟨live, heat, records, enterState_hostUpHandOver st tm now same state⟩

theorem SameHandOver.refl (s : State) : SameHandOver s s :=
  ⟨rfl, rfl, rfl, rfl, rfl, rfl, rfl, rfl, rfl, rfl, rfl, rfl, rfl, rfl⟩

/-- Changes of the Liveness Controller, the Restart Log and what is counted of liveness hand nothing over. -/
theorem SameHandOver.liveness {s v : State} (same : SameHandOver s v) (live : LivenessController) (log : RestartLog)
    (count : Vector Counter 11) :
    SameHandOver s { v with live := live, log := log, counters := { v.counters with liveness := count } } :=
  ⟨same.clock, same.tables, same.exchanges, same.fieldPort, same.hostPort, same.proxy, same.keyList, same.keyUnit,
    same.pool, same.noticeNo, same.links, same.proxyCounters, same.exchangeCounters, same.keyCounters⟩

/-- What a counted restart makes of the Liveness Controller and the Restart Log (R86, R94). -/
def CountedRestarts (cause : RestartCause) (now : Instant) (s t : State) : Prop :=
  let aged := s.live.budget.dropWhile fun e => decide ((settings s).budgetWindow.toNat < elapsed e now.sec)
  let failed := satAdd s.live.failedRestarts 1
  let record : RestartAction → LogRecord := fun act =>
    ⟨s.log.nextSeq, cause, act, now.sec, uptimeAt s.live now, loggedBoardTemp s, s.live.lateReplies, true⟩
  if (settings s).maxRestarts.toNat ≤ aged.length then
    t.live = { s.live with state := .latched, enteredAt := now.sec, timer := none, budget := aged } ∧
    t.log = s.log.append (record .powerOff)
  else if (settings s).resetEscalation.toNat ≤ failed.toNat then
    t.live = { s.live with
      state := .cycling, enteredAt := now.sec, budget := aged ++ [now.sec], failedRestarts := failed,
      timer := some ⟨now.ms, (settings s).cycleOff.toNat * 1000⟩ } ∧
    t.log = s.log.append (record .powerCycle)
  else
    t.live = { s.live with
      state := .resetting, enteredAt := now.sec, budget := aged ++ [now.sec], failedRestarts := failed,
      timer := some ⟨now.ms, (settings s).resetPulse.toNat⟩ } ∧
    t.log = s.log.append (record .resetPulse)

/-- The budget and the failed-restart count charged with a counted restart (R86). -/
def charged (now : Instant) (s : State) : State :=
  let u := ageBudget now s
  bump Ctr.livenessCountedRestarts { u with live := { u.live with
    budget := u.live.budget ++ [now.sec], failedRestarts := satAdd u.live.failedRestarts 1 } }

/-- A counted restart of a powered host: what it makes of the Liveness Controller and the Restart Log, the heaters and
the records of the keys as they were, the host not up after it, and what it hands over. -/
theorem countedRestart_spec {s v : State} (cause : RestartCause) (now : Instant) (powered : hostPowerEnable s = true)
    (same : SameHandOver s v) (state : v.live.state = s.live.state) :
    CountedRestarts cause now v (countedRestart cause now v) ∧
    (countedRestart cause now v).heat = v.heat ∧
    (countedRestart cause now v).keyUnit.records = v.keyUnit.records ∧
    hostUp (countedRestart cause now v) = false ∧
    HostUpHandOver s (countedRestart cause now v) := by
  have off : ∀ (st : Liveness) (tm : Option Timer) (u : State), st.isHostUp = false →
      hostUp (enterState st tm now u) = false := by
    intro st tm u h
    rw [hostUp, enterState_state]
    exact h
  unfold CountedRestarts
  dsimp only
  split_ifs with spent escalates
  · let w := writeLog cause .powerOff true now (ageBudget now v)
    have e : countedRestart cause now v = bump Ctr.livenessLatches (enterState .latched none now w) := if_pos spent
    obtain ⟨live, heat, records, handOver⟩ := enterState_powered (v := w) .latched none now powered
      (same.liveness w.live w.log w.counters.liveness) state
    rw [e]
    exact ⟨⟨live, enterState_log ..⟩, heat, records, off _ _ _ rfl, handOver.bump_liveness _⟩
  · let w := writeLog cause .powerCycle true now (charged now v)
    have e : countedRestart cause now v = enterCycling now w := (if_neg spent).trans (if_pos escalates)
    obtain ⟨live, heat, records, handOver⟩ := enterState_powered (v := w) .cycling
      (some (startTimer now ((settings v).cycleOff.toNat * 1000))) now powered
      (same.liveness w.live w.log w.counters.liveness) state
    rw [e]
    exact ⟨⟨live, enterState_log ..⟩, heat, records, off _ _ _ rfl, handOver⟩
  · let w := writeLog cause .resetPulse true now (charged now v)
    have e : countedRestart cause now v = enterResetting now w := (if_neg spent).trans (if_neg escalates)
    obtain ⟨live, heat, records, handOver⟩ := enterState_powered (v := w) .resetting
      (some (startTimer now (settings v).resetPulse.toNat)) now powered
      (same.liveness w.live w.log w.counters.liveness) state
    rw [e]
    exact ⟨⟨live, enterState_log ..⟩, heat, records, off _ _ _ rfl, handOver⟩

/-- Settles O28: both expiries are a counted restart of a powered host. -/
theorem countedRestartRule : Obligations.CountedRestartRule := by
  intro s p hp due
  have state := state_of_livenessTimerDue _ s due
  have run : exec p.1 s = .next (countedRestart p.2.2 s.clock s) ∧ hostPowerEnable s = true ∧
      (p.2.1 = .warned → hostUp s = true) := by
    simp only [List.mem_cons, List.not_mem_nil, or_false] at hp
    rcases hp with rfl | rfl
    · refine ⟨?_, by rw [hostPowerEnable, state]; rfl, fun h => nomatch h⟩
      show execBootGraceExpiry s = _
      rw [execBootGraceExpiry, if_pos due]
    · refine ⟨?_, by rw [hostPowerEnable, state]; rfl, fun _ => by rw [hostUp, state]; rfl⟩
      show execWarnGraceExpiry s = _
      rw [execWarnGraceExpiry, if_pos due]
  obtain ⟨run, powered, up⟩ := run
  obtain ⟨restarts, heat, records, down, handOver⟩ := countedRestart_spec p.2.2 s.clock powered (.refl s) rfl
  refine ⟨_, run, restarts, fun h => handOver.leaves (up h) down, handOver, ?_, heat, ?_, ?_, ?_, records, ?_, ?_, ?_⟩
  all_goals simp

/-- Settles O43: a restart ends the run of a powered host, a release takes an unpowered one into COLD HOLD. -/
theorem restartAndReleaseRule : Obligations.RestartAndReleaseRule := by
  refine ⟨fun s cause cycle now powered => ?_, fun s now releasable => ?_⟩
  · let act : RestartAction := if cycle = true then .powerCycle else .resetPulse
    let w := writeLog cause act false now (bump Ctr.livenessUncountedRestarts s)
    let st : Liveness := if cycle = true then .cycling else .resetting
    let tm : Timer := if cycle = true then ⟨now.ms, (settings s).cycleOff.toNat * 1000⟩
      else ⟨now.ms, (settings s).resetPulse.toNat⟩
    have e : uncountedRestart cause cycle now s = enterState st (some tm) now w := by
      cases cycle <;> rfl
    have down : hostUp (enterState st (some tm) now w) = false := by
      rw [hostUp, enterState_state]
      cases cycle <;> rfl
    obtain ⟨live, heat, -, handOver⟩ := enterState_powered (v := w) st (some tm) now powered
      ((SameHandOver.refl s).liveness w.live w.log w.counters.liveness) rfl
    refine ⟨_, e, live, enterState_log .., fun up => handOver.leaves up down, handOver, ?_, heat, ?_, ?_, ?_⟩ <;>
      simp [w]
  · let l : LivenessController := { s.live with
      budget := if s.live.state = .latched then [] else s.live.budget
      failedRestarts := if s.live.state = .latched then 0 else s.live.failedRestarts }
    have e : releaseHost now s = enterColdHold now { s with live := l } := by
      unfold releaseHost
      rcases releasable with off | latched
      · have same : l = s.live := by
          dsimp only [l]
          rw [if_neg (by simp [off]), if_neg (by simp [off])]
        rw [off, same]
      · simp [l, latched]
    have off : hostPowerEnable s = false := by
      rcases releasable with h | h <;> rw [hostPowerEnable, h] <;> rfl
    obtain ⟨power, up⟩ := enterColdHold_handOver now l off off
    refine ⟨_, e, ?_⟩
    have settled := enterColdHold_of_unpowered now (s := { s with live := l }) off
    by_cases goesOn : s.temp.readiness = .ready ∧ coldFallback s = false ∧ s.temp.hot = false
    · have held : (coldHeld now { s with live := l }).live.state.isPowered = false := rfl
      rw [settled, if_pos (by exact goesOn), enterPowering_eq now held] at power up ⊢
      rw [if_pos goesOn]
      exact ⟨rfl, rfl, power, up, rfl, rfl, rfl, rfl, rfl⟩
    · rw [settled, if_neg (by exact goesOn)] at power up ⊢
      rw [if_neg goesOn]
      exact ⟨rfl, rfl, power, up, rfl, rfl, rfl, rfl, rfl⟩

end Sys2Proof.Machine
end

section
/-! SUPPORT. The Management Unit: permission (O45), replies (O44), the host commands (O53, O54), and the commands on the
Proxy Table, the flags, the log, the fan and the reset (O52, O55), with the timers of the store and the permit (O51). -/

namespace Sys2Proof.Machine

/-! ### Permission (R178, R179) -/

theorem refusal_fieldPermit_without {s : State} (h : s.mgmt.permit = none) :
    Permission.fieldPermit.refusal .field s = some .noPermit := by
  simp [Permission.refusal, needPermit, h]

theorem refusal_notFrozen_without {s : State} (permit : s.mgmt.permit = none) (frozen : s.mgmt.frozen = false) :
    Permission.notFrozen.refusal .field s = some .noPermit := by
  simp [Permission.refusal, needPermit, permit, frozen]

theorem refusal_notFrozen_frozen {s : State} (q : Port) (frozen : s.mgmt.frozen = true) :
    Permission.notFrozen.refusal q s = some .frozen := by
  simp [Permission.refusal, frozen]

/-- READ COUNTERS that clears needs Field Permit (R178). -/
theorem readCountersPermission_clearing {q : Port} {c : Command} {s s' : State} (takes : Takes 0x0E q c s s')
    (clears : c.args[1]? ≠ some 0) : readCountersPermission q s = .fieldPermit := by
  obtain ⟨-, -, b, found, rfl⟩ := takes_spec _ _ _ _ _ takes
  unfold readCountersPermission
  rw [found]
  exact if_neg clears

/-- SUPERVISOR RESET carried out on the command that it takes up. -/
theorem exec_supervisorReset {q : Port} {c : Command} {s s' : State} (takes : Takes 0x11 q c s s') :
    exec (.supervisorReset q) s = .next (doSupervisorReset c s') := by
  show execSupervisorReset q s = _
  rw [execSupervisorReset, show takeCommand 0x11 q s = some (c, s') from takes]

/-- Settles O45: each row's permission is refused in the state that the taken command leaves. -/
theorem permissionRule : Obligations.PermissionRule := by
  refine ⟨fun s s' c => ⟨fun p hp takes => ?_, fun permit p hp takes => ?_, fun permit frozen p hp takes => ?_,
    fun permit clears takes => ?_⟩, fun s s' q c frozen => ⟨fun p hp takes => ?_, fun takes => ?_⟩⟩
  · simp only [List.mem_cons, List.not_mem_nil, or_false] at hp
    rcases hp with rfl | rfl | rfl | rfl
    · exact congrArg _ (serve_refused _ _ _ _ _ _ _ .noPermit takes rfl)
    · exact congrArg _ (serve_refused _ _ _ _ _ _ _ .noPermit takes rfl)
    · exact congrArg _ (serve_refused _ _ _ _ _ _ _ .noPermit takes rfl)
    · obtain ⟨port, -⟩ := takes_spec _ _ _ _ _ takes
      rw [exec_supervisorReset takes, doSupervisorReset, port]
      rfl
  · obtain ⟨-, permit', -⟩ := takes_frame takes
    have refused := refusal_fieldPermit_without (permit'.trans permit)
    simp only [List.mem_cons, List.not_mem_nil, or_false] at hp
    rcases hp with rfl | rfl | rfl | rfl <;> exact congrArg _ (serve_refused _ _ _ _ _ _ _ .noPermit takes refused)
  · obtain ⟨frozen', permit', -⟩ := takes_frame takes
    have refused := refusal_notFrozen_without (permit'.trans permit) (frozen'.trans frozen)
    simp only [List.mem_cons, List.not_mem_nil, or_false] at hp
    rcases hp with rfl | rfl | rfl | rfl | rfl <;>
      exact congrArg _ (serve_refused _ _ _ _ _ _ _ .noPermit takes refused)
  · obtain ⟨-, permit', -⟩ := takes_frame takes
    have refused := refusal_fieldPermit_without (permit'.trans permit)
    rw [← readCountersPermission_clearing takes clears] at refused
    exact congrArg _ (serve_refused _ _ _ _ _ _ _ .noPermit takes refused)
  · obtain ⟨frozen', -⟩ := takes_frame takes
    have refused := refusal_notFrozen_frozen q (frozen'.trans frozen)
    simp only [List.mem_cons, List.not_mem_nil, or_false] at hp
    rcases hp with rfl | rfl | rfl | rfl | rfl <;>
      exact congrArg _ (serve_refused _ _ _ _ _ _ _ .frozen takes refused)
  · obtain ⟨frozen', -⟩ := takes_frame takes
    exact congrArg _ (serve_refused _ _ _ _ _ _ _ .frozen takes
      (by simp [Permission.refusal, frozen'.trans frozen]))

/-! ### Replies (R177, R18, R19) -/

/-- Settles O44. -/
theorem managementReplyRule : Obligations.ManagementReplyRule := by
  refine fun s code c r data => ⟨fun port room => ?_, fun port room => ?_, fun full => ?_⟩
  · simp [replyTo, replyQueueRoom, port, hostQueueRoom, room, enqueueReplyBuffer, enqueueHost, setBuffer, replyBytes,
      replyStation]
  · simp [replyTo, replyQueueRoom, port, fieldQueueRoom, room, enqueueReplyBuffer, enqueueFieldBuffer, setBuffer,
      replyBytes, replyStation]
  · refine if_neg ?_
    rcases full with ⟨port, full⟩ | ⟨port, full⟩
    · simp [replyQueueRoom, port, hostQueueRoom, full]
    · simp [replyQueueRoom, port, fieldQueueRoom, full]

/-! ### The store and the permit (R187, R180) -/

/-- The end of a store write, with the store and the kept marks written out (R187). -/
theorem exec_storeWriteComplete {s : State} {j : StoreJob} {st : Store} {keep : BitVec 7}
    (id : Nat) (writing : s.store.writing = some j) (written : finishWrite j s.store = st) (table : j.id = id)
    (marks : ~~~(1#7 <<< (id - 1)) = keep) :
    exec .storeWriteComplete s = .next { s with
      store := st
      mgmt := { s.mgmt with defaultsInUse := s.mgmt.defaultsInUse &&& keep } } := by
  show execStoreWriteComplete s = _
  rw [execStoreWriteComplete, writing, ← written, ← marks, ← table]
  rfl

/-- Settles O51. -/
theorem storeAndPermitTimers : Obligations.StoreAndPermitTimers := by
  refine ⟨fun s => ⟨fun t writing => exec_storeWriteComplete 6 writing rfl rfl (by decide),
    ⟨fun t writing => exec_storeWriteComplete 1 writing rfl rfl (by decide),
      fun t writing => exec_storeWriteComplete 2 writing rfl rfl (by decide),
      fun t writing => exec_storeWriteComplete 3 writing rfl rfl (by decide),
      fun t writing => exec_storeWriteComplete 4 writing rfl rfl (by decide),
      fun t writing => exec_storeWriteComplete 5 writing rfl rfl (by decide),
      fun t writing => exec_storeWriteComplete 7 writing rfl rfl (by decide)⟩, fun idle => ?_⟩, fun s => ?_⟩
  · show execStoreWriteComplete s = _
    rw [execStoreWriteComplete, idle]
  · show execPermitExpiry s = _
    unfold execPermitExpiry
    cases s.mgmt.permit with
    | none => rfl
    | some t => exact congrArg _ (if_congr decide_eq_true_iff rfl rfl)

/-! ### Commands that are let in -/

/-- A command with Field Permit or from the Host Link, in the state that its taking leaves. -/
theorem refusal_fieldPermit_takes {code : Nat} {q : Port} {c : Command} {s s' : State} (takes : Takes code q c s s')
    (permitted : Permitted q s) : Permission.fieldPermit.refusal q s' = none :=
  refusal_fieldPermit rfl permitted (takes_frame takes).2.1

theorem refusal_notFrozen_takes {code : Nat} {q : Port} {c : Command} {s s' : State} (takes : Takes code q c s s')
    (permitted : Permitted q s) (frozen : s.mgmt.frozen = false) : Permission.notFrozen.refusal q s' = none := by
  obtain ⟨frozen', permit', -⟩ := takes_frame takes
  exact refusal_notFrozen rfl permitted frozen ⟨frozen', permit'⟩

theorem arg_of_args {c : Command} {args : List Byte} (h : c.args = args) (i : Nat) :
    c.arg i = (byteAt args i).toNat := by
  rw [Command.arg, h]

theorem withLength_eq {n : Nat} {c : Command} (h : c.args.length = n) (act : Command → State → Answer) (s : State) :
    withLength n act c s = act c s :=
  if_pos h

/-- Settles O52. -/
theorem writeProxyAndFlags : Obligations.WriteProxyAndFlags := by
  intro s s' q c permitted
  refine ⟨fun e payload takes short args valid => ?_, fun takes bad => ?_, fun hi lo takes args => ?_⟩
  · have code : c.arg 0 = e := (arg_of_args args 0).trans (byte_toNat _ (by omega))
    have length : c.arg 1 = payload.length := (arg_of_args args 1).trans (byte_toNat _ (by omega))
    obtain ⟨-, -, -, -, tables, proxy, -⟩ := takes_frame takes
    have argsOk : writeProxyArgsOk c = true := by
      simp [writeProxyArgsOk, code, length, args, short]
      omega
    have act : doWriteProxy c s' = if inactivePinned e s' then ⟨bump Ctr.proxyBusyProxyWrites s', .busy, []⟩
        else done (bump Ctr.proxyProxyWrites (fillInactive e payload c.arrival s')) := by
      have inRange : c.arg 0 < 16 := by omega
      have entry : (⟨c.arg 0, inRange⟩ : ProxyId) = e := Fin.ext code
      have valid' : s'.tables.proxy.live[e].valid = true := by rw [tables, valid]
      unfold doWriteProxy
      rw [dif_pos inRange]
      simp only [entry, argsOk, valid', args]
      rfl
    have admitted := serve_admitted 0x06 .fieldPermit q doWriteProxy c s s' takes
      (refusal_fieldPermit_takes takes permitted)
    refine (congrArg _ admitted).trans ?_
    rw [act, ← proxy]
    by_cases pinned : 0 < (s'.proxy[e].get s'.proxy[e].active.other).pins
    · simp only [inactivePinned, pinned, decide_true, if_true]
    · simp only [inactivePinned, pinned, decide_false, Bool.false_eq_true, if_false]
      rfl
  · have admitted := serve_admitted 0x06 .fieldPermit q doWriteProxy c s s' takes
      (refusal_fieldPermit_takes takes permitted)
    obtain ⟨-, -, -, -, tables, -⟩ := takes_frame takes
    have refused : doWriteProxy c s' = refuse s' .badArgument := by
      unfold doWriteProxy
      split
      · rename_i inRange
        refine if_neg fun ok => ?_
        simp only [writeProxyArgsOk, Bool.and_eq_true, decide_eq_true_eq, beq_iff_eq] at ok
        obtain ⟨⟨⟨⟨-, index⟩, short⟩, length⟩, valid⟩ := ok
        rcases bad with high | long | other | ⟨e, code, invalid⟩
        · exact absurd index (Nat.not_le.2 high)
        · exact absurd short (Nat.not_le.2 long)
        · exact other length
        · have entry : (⟨c.arg 0, inRange⟩ : ProxyId) = e :=
            Fin.ext ((congrArg BitVec.toNat code).trans (byte_toNat _ (by omega)))
          subst entry
          rw [tables, invalid] at valid
          cases valid
      · rfl
    refine (congrArg _ admitted).trans ?_
    rw [refused]
    rfl
  · have admitted := serve_admitted 0x07 .fieldPermit q (withLength 2 doSetFlags) c s s' takes
      (refusal_fieldPermit_takes takes permitted)
    have pattern : BitVec.ofNat 16 (readBE c.args) = hi ++ lo := by rw [args, (readBE_two hi lo).1]
    have flags : s'.flags = s.flags := by simp [(takes_frame takes)]
    rw [withLength_eq (by rw [args]; rfl), doSetFlags, pattern] at admitted
    refine (congrArg _ admitted).trans ?_
    rw [← flags]
    rfl

/-! ### The log, the fan, Frozen and the reset (R95, R137, R179, R189) -/

theorem boardMinusAir_isSome (s : State) :
    (boardMinusAir s).isSome = (s.temp.board.isValid && s.temp.air.isValid) := by
  unfold boardMinusAir
  cases s.temp.board <;> cases s.temp.air <;> rfl

/-- A learn that starts commands duty 100 and takes the fan out of Off (R137). -/
theorem startLearn_fan (t : Instant) (s : State) :
    (startLearn t s).fan.learn = .learning ⟨t.ms, 120000⟩ ∧ (startLearn t s).fan.commanded = 100 ∧
    (startLearn t s).fan.state = if s.fan.state = .off then .running else s.fan.state := by
  simp only [startLearn, FanDrive.followDuty]
  cases s.fan.state <;> exact ⟨rfl, rfl, rfl⟩

/-- Settles O55: each command let in, by its own test. -/
theorem otherCommandsRule : Obligations.OtherCommandsRule := by
  intro s s' q c args
  have noArgs : c.args.length = 0 := by rw [args]; rfl
  have learn : Takes 0x0F q c s s' → Permitted q s → s.mgmt.frozen = false → exec (.learnAirflow q) s = .next
      (replyTo 0x0F c (doLearnAirflow c s').result (doLearnAirflow c s').data (doLearnAirflow c s').state) := by
    intro takes permitted frozen
    have admitted := serve_admitted 0x0F .notFrozen q (withLength 0 doLearnAirflow) c s s' takes
      (refusal_notFrozen_takes takes permitted frozen)
    rw [withLength_eq noArgs] at admitted
    exact congrArg _ admitted
  have fan : ∀ {code p}, Takes code p c s s' → s'.fan = s.fan := fun takes => by
    obtain ⟨-, rfl⟩ := takes_erases takes
    rfl
  have temp : ∀ {code p}, Takes code p c s s' → s'.temp = s.temp := fun takes => by
    obtain ⟨-, rfl⟩ := takes_erases takes
    rfl
  have busy : ∀ {code p}, Takes code p c s s' →
      storeBusy s' = (s.store.writing.isSome || s.mgmt.resetPending.isSome) := fun takes => by
    obtain ⟨-, rfl⟩ := takes_erases takes
    rfl
  have reset : Takes 0x11 .host c s s' → doSupervisorReset c s' =
      if storeBusy s' = true then replyTo 0x11 c .busy [] s' else requestReset c s' := by
    intro takes
    have port := (takes_spec _ _ _ _ _ takes).1
    simp [doSupervisorReset, port, args]
  refine ⟨fun takes permitted frozen => ?_, fun takes permitted frozen idle b a board air => ?_,
    fun takes permitted frozen learning => ?_, fun takes permitted frozen idle invalid => ?_, fun takes frozen => ?_,
    fun takes idle noReset => ?_, fun takes isBusy => ?_⟩
  · have admitted := serve_admitted 0x0D .notFrozen q (withLength 0 doClearLog) c s s' takes
      (refusal_notFrozen_takes takes permitted frozen)
    rw [withLength_eq noArgs, doClearLog] at admitted
    obtain ⟨-, rfl⟩ := takes_erases takes
    refine (congrArg _ admitted).trans ?_
    split <;> rfl
  · have valid : (boardMinusAir s').isSome = true := by
      rw [boardMinusAir_isSome, temp takes, board, air]
      rfl
    have notLearning : s'.fan.learn.isLearning = false := by rw [fan takes, idle]
    have act : doLearnAirflow c s' = done (startLearn c.arrival s') := by
      rw [doLearnAirflow, if_neg (by simp [notLearning]), if_pos valid]
    refine ⟨startLearn c.arrival s', ?_, ?_⟩
    · rw [learn takes permitted frozen, act]
      rfl
    · obtain ⟨learning, commanded, state⟩ := startLearn_fan c.arrival s'
      rw [fan takes] at state
      exact ⟨learning, commanded, state, rfl⟩
  · rw [learn takes permitted frozen, doLearnAirflow, if_pos (by rw [fan takes, learning])]
    rfl
  · have none : (boardMinusAir s').isSome = false := by
      rw [boardMinusAir_isSome, temp takes]
      rcases invalid with h | h <;> simp [h]
    rw [learn takes permitted frozen, doLearnAirflow, if_neg (by simp [fan takes, idle]), if_neg (by simp [none])]
    rfl
  · have admitted := serve_admitted 0x10 .hostNotFrozen .host (withLength 0 doFreeze) c s s' takes
      (by simp [Permission.refusal, (takes_frame takes).1, frozen])
    rw [withLength_eq noArgs] at admitted
    exact congrArg _ admitted
  · rw [exec_supervisorReset takes, reset takes, busy takes, idle, noReset, if_neg (by simp), requestReset]
    have room : hostQueueRoom s' = decide (s.hostPort.queue.length < 16) := by
      obtain ⟨-, rfl⟩ := takes_erases takes
      rfl
    simp only [room, decide_eq_true_eq]
    exact apply_ite _ _ _ _
  · rw [exec_supervisorReset takes, reset takes, busy takes, if_pos (by simpa using isBusy)]

end Sys2Proof.Machine
end

section
/-! SUPPORT. The commands that the host gives of itself: FEED (O53) and HOST RESTART, POWER OFF and RELEASE (O54). -/

namespace Sys2Proof.Machine

/-! ### FEED (R84) -/

theorem exec_feed {c : Command} {s s' : State} (takes : Takes 0x08 .host c s s') (args : c.args = []) :
    exec (.feed .host) s = .next (replyTo 0x08 c (doFeed c s').result (doFeed c s').data (doFeed c s').state) := by
  have admitted := serve_admitted 0x08 .hostOnly .host (withLength 0 doFeed) c s s' takes rfl
  rw [withLength_eq (by rw [args]; rfl)] at admitted
  exact congrArg _ admitted

theorem doFeed_unheard {s : State} (h : s.live.state.hears = false) (c : Command) :
    doFeed c s = ⟨bump Ctr.livenessFeedsInWrongState s, .wrongState, []⟩ := by
  simp [doFeed, h]

theorem doFeed_accepted {c : Command} {s : State} (hears : s.live.state.hears = true)
    (timely : feedIsEarly c.arrival s = false) :
    doFeed c s = done (bump Ctr.livenessFeedsAccepted (acceptHeartbeat c.arrival s))
      [1, stateCode (bump Ctr.livenessFeedsAccepted (acceptHeartbeat c.arrival s))] := by
  simp [doFeed, hears, timely]

theorem doFeed_early {c : Command} {s : State} (hears : s.live.state.hears = true)
    (early : feedIsEarly c.arrival s = true) :
    doFeed c s = done (earlyFeed c.arrival s) [0, stateCode (earlyFeed c.arrival s)] := by
  simp [doFeed, hears, early]

/-- A heartbeat accepted in BOOTING or WARNED (R82). -/
theorem acceptHeartbeat_graced (t : Instant) {u : State} (h : u.live.state = .booting ∨ u.live.state = .warned) :
    (acceptHeartbeat t u).live = runningFrom t u ∧
    (acceptHeartbeat t u).keyList.events = (if u.live.state = .booting then [] else u.keyList.events) ∧
    (acceptHeartbeat t u).log = u.log ∧ (acceptHeartbeat t u).exchanges = u.exchanges ∧
    (acceptHeartbeat t u).tables = u.tables ∧ (acceptHeartbeat t u).temp = u.temp := by
  have hears : u.live.state.hears = true := by rcases h with h | h <;> rw [h] <;> rfl
  rcases acceptHeartbeat_cases t u hears with ⟨running, -⟩ | ⟨booting, e⟩ | ⟨warned, e⟩
  · rcases h with h | h <;> cases h.symm.trans running
  · rw [e, if_pos booting]
    exact ⟨rfl, rfl, rfl, rfl, rfl, rfl⟩
  · rw [e, if_neg (by rw [warned]; nofun)]
    exact ⟨rfl, rfl, rfl, rfl, rfl, rfl⟩

/-- Settles O53: FEED by what hears it and by its time, each third early one a counted restart. -/
theorem feedRule : Obligations.FeedRule := by
  intro s s' c takes args
  have run := exec_feed takes args
  have live : s'.live = s.live := (takes_frame takes).2.2.2.1
  have set : settings s' = settings s := by rw [settings, settings, (takes_frame takes).2.2.2.2.1]
  have early : s.live.state = .running → feedIsEarly c.arrival s' =
      decide (elapsed s.live.lastHeartbeat c.arrival.ms < (settings s).windowMin.toNat) := by
    intro running
    simp [feedIsEarly, live, set, running]
  refine ⟨fun state => ?_, fun running timely => ?_, fun running hasty few => ?_, fun running hasty third => ?_,
    fun unheard => ?_⟩
  · have timely : feedIsEarly c.arrival s' = false := by
      rcases state with h | h <;> simp [feedIsEarly, live, h]
    have hears : s'.live.state.hears = true := by
      rw [live]
      rcases state with h | h <;> rw [h] <;> rfl
    rw [doFeed_accepted hears timely] at run
    obtain ⟨running, events, kept⟩ := acceptHeartbeat_graced c.arrival (u := s') (by rwa [live])
    have code : stateCode (bump Ctr.livenessFeedsAccepted (acceptHeartbeat c.arrival s')) = 4 := by
      show byte (acceptHeartbeat c.arrival s').live.state.code = 4
      rw [running]
      rfl
    rw [code] at run
    obtain ⟨-, rfl⟩ := takes_erases takes
    exact ⟨_, run, running, events, kept⟩
  · rw [doFeed_accepted (by rw [live, running]; rfl) (by simpa [early running] using timely),
      acceptHeartbeat_in_running _ _ (by rw [live, running])] at run
    obtain ⟨-, rfl⟩ := takes_erases takes
    refine run.trans ?_
    have code : byte s.live.state.code = 4 := by rw [running]; rfl
    rw [← code]
    rfl
  · rw [doFeed_early (by rw [live, running]; rfl) (by simpa [early running] using hasty), earlyFeed] at run
    obtain ⟨-, rfl⟩ := takes_erases takes
    have code : byte s.live.state.code = 4 := by rw [running]; rfl
    rw [if_neg (by exact Nat.not_le.2 (Nat.succ_lt_succ few))] at run
    rw [run, ← code]
    rfl
  · rw [doFeed_early (by rw [live, running]; rfl) (by simpa [early running] using hasty)] at run
    let v : State := { bump Ctr.livenessEarlyFeeds { s' with live.earlyStreak := s'.live.earlyStreak + 1 } with
      live := { s'.live with earlyStreak := 0 } }
    have third' : earlyFeed c.arrival s' = countedRestart .earlyFeed c.arrival v := by
      refine if_pos ?_
      show 3 ≤ s'.live.earlyStreak + 1
      rw [live]
      omega
    have state : s'.live.state = .running := by rw [live, running]
    obtain ⟨restarts, heat, -, down, handOver⟩ := countedRestart_spec (s := s') (v := v) .earlyFeed c.arrival
      (by rw [hostPowerEnable, state]; rfl) ((SameHandOver.refl s').liveness v.live v.log v.counters.liveness) rfl
    rw [third'] at run
    obtain ⟨-, rfl⟩ := takes_erases takes
    exact ⟨_, run, restarts, handOver.leaves (by rw [hostUp, state]; rfl) down, countedRestart_temp .., heat,
      countedRestart_fan .., countedRestart_tables .., countedRestart_flags ..⟩
  · rw [run, doFeed_unheard]
    rw [live, ← Bool.not_eq_true, hears_iff]
    exact unheard

/-! ### HOST RESTART, HOST POWER OFF and HOST RELEASE (R78, R90, R91) -/

theorem uncountedRestart_state (cause : RestartCause) (cycle : Bool) (t : Instant) (s : State) :
    (uncountedRestart cause cycle t s).live.state = if cycle = true then .cycling else .resetting := by
  cases cycle <;> exact enterState_state ..

/-- A hand-over reads nothing of the Liveness Controller but whether the host is up, and nothing of the log. -/
theorem HostUpHandOver.with_live {s t : State} (h : HostUpHandOver s t) {l : LivenessController} (log : RestartLog)
    (same : l.state.isHostUp = hostUp t) : HostUpHandOver s { t with live := l, log := log } := by
  unfold HostUpHandOver at h ⊢
  rw [show hostUp { t with live := l, log := log } = hostUp t from same]
  exact h

theorem doHostRestart_eq {c : Command} {kind : Byte} (args : c.args = [kind]) (s : State) :
    doHostRestart c s = if kind.toNat ≤ 1 then
        if hostPowerEnable s = true then
          done (uncountedRestart .managementCommand (decide (kind = 1)) c.arrival s) [if kind = 1 then 7 else 6]
        else refuse s .wrongState
      else refuse s .badArgument := by
  have arg : c.arg 0 = kind.toNat := arg_of_args args 0
  have cycle : (kind.toNat == 1) = decide (kind = 1) := by
    rw [Bool.eq_iff_iff, beq_iff_eq, decide_eq_true_iff]
    exact ⟨fun h => BitVec.eq_of_toNat_eq h, fun h => h ▸ rfl⟩
  have code : stateCode (uncountedRestart .managementCommand (decide (kind = 1)) c.arrival s) =
      if kind = 1 then 7 else 6 := by
    rw [stateCode, uncountedRestart_state]
    simp only [decide_eq_true_eq]
    split <;> rfl
  simp only [doHostRestart, arg, cycle, code]

theorem exec_hostRestart {q : Port} {c : Command} {kind : Byte} {s s' : State} (takes : Takes 0x09 q c s s')
    (permitted : Permitted q s) (args : c.args = [kind]) :
    exec (.hostRestart q) s =
      .next (replyTo 0x09 c (doHostRestart c s').result (doHostRestart c s').data (doHostRestart c s').state) := by
  have admitted := serve_admitted 0x09 .fieldPermit q (withLength 1 doHostRestart) c s s' takes
    (refusal_fieldPermit_takes takes permitted)
  rw [withLength_eq (by rw [args]; rfl)] at admitted
  exact congrArg _ admitted

theorem exec_hostPowerOff {c : Command} {hi lo : Byte} {s s' : State} (takes : Takes 0x0A .host c s s')
    (args : c.args = [hi, lo]) :
    exec (.hostPowerOff .host) s =
      .next (replyTo 0x0A c (doHostPowerOff c s').result (doHostPowerOff c s').data (doHostPowerOff c s').state) := by
  have admitted := serve_admitted 0x0A .hostOnly .host (withLength 2 doHostPowerOff) c s s' takes rfl
  rw [withLength_eq (by rw [args]; rfl)] at admitted
  exact congrArg _ admitted

theorem exec_hostRelease {q : Port} {c : Command} {s s' : State} (takes : Takes 0x0B q c s s')
    (permitted : Permitted q s) (args : c.args = []) :
    exec (.hostRelease q) s =
      .next (replyTo 0x0B c (doHostRelease c s').result (doHostRelease c s').data (doHostRelease c s').state) := by
  have admitted := serve_admitted 0x0B .fieldPermit q (withLength 0 doHostRelease) c s s' takes
    (refusal_fieldPermit_takes takes permitted)
  rw [withLength_eq (by rw [args]; rfl)] at admitted
  exact congrArg _ admitted

/-- HOST POWER OFF of a powered host (R91). -/
theorem doHostPowerOff_powered {c : Command} {n : Nat} {s : State} (delay : readBE c.args = n) (short : n ≤ 600)
    (powered : hostPowerEnable s = true) :
    doHostPowerOff c s = done (startStop n c.arrival s) [stateCode (startStop n c.arrival s)] := by
  simp only [doHostPowerOff, delay]
  rw [if_neg (Nat.not_lt.2 short), if_pos powered]

/-- STOPPING entered with a delay that runs (R91). -/
theorem startStop_delayed {n : Nat} (later : 0 < n) (t : Instant) {s : State} (other : s.live.state ≠ .stopping) :
    startStop n t s = enterState .stopping (some ⟨t.ms, n * 1000⟩) t s := by
  simp [startStop, other, later.ne', startTimer]

theorem startStop_again {n : Nat} (later : 0 < n) (t : Instant) {s : State} (stopping : s.live.state = .stopping) :
    startStop n t s = { s with live := { s.live with timer := some ⟨t.ms, n * 1000⟩ } } := by
  simp [startStop, stopping, later.ne', startTimer]

/-- A stop at once: the Liveness Controller in OFF, the record, and what leaving HostUp hands over (R91, R96). -/
theorem startStop_now {s : State} (t : Instant) (powered : hostPowerEnable s = true) :
    (startStop 0 t s).live = { s.live with state := .off, enteredAt := t.sec, timer := none } ∧
    (startStop 0 t s).log = s.log.append ⟨s.log.nextSeq, .hostShutdown, .powerOff, t.sec, uptimeAt s.live t,
      loggedBoardTemp s, s.live.lateReplies, false⟩ ∧
    HostUpHandOver s (startStop 0 t s) ∧ (startStop 0 t s).heat = s.heat := by
  have ended : ∀ (u : State) (l : LivenessController), u.live = l → l.state = .stopping →
      finishStop t u = { u with
        live := { l with state := .off, enteredAt := t.sec, timer := none }
        log := (writeLog .hostShutdown .powerOff false t u).log } := by
    rintro u l rfl stopping
    exact enterState_plain .off none t (writeLog .hostShutdown .powerOff false t u) (.inr rfl)
      (.inl (by rw [writeLog_live, stopping]; rfl))
  have logged : ∀ u : State, u.live.bootTime = s.live.bootTime → u.live.lateReplies = s.live.lateReplies →
      u.log = s.log → u.temp = s.temp →
      (writeLog .hostShutdown .powerOff false t u).log = s.log.append ⟨s.log.nextSeq, .hostShutdown, .powerOff, t.sec,
        uptimeAt s.live t, loggedBoardTemp s, s.live.lateReplies, false⟩ := by
    intro u boot late log temp
    simp only [writeLog, loggedBoardTemp, uptimeAt, boot, late, log, temp]
  by_cases stopping : s.live.state = .stopping
  · let l : LivenessController := { s.live with timer := some (startTimer t (0 * 1000)) }
    have e : startStop 0 t s = finishStop t { s with live := l } := by
      simp [startStop, stopping, l]
    rw [e, ended _ l rfl stopping]
    exact ⟨rfl, logged _ rfl rfl rfl rfl, .of_down (by rw [hostUp, stopping]; rfl) rfl rfl rfl rfl rfl rfl rfl, rfl⟩
  · have e : startStop 0 t s = finishStop t (enterState .stopping (some (startTimer t (0 * 1000))) t s) := by
      simp [startStop, stopping]
    obtain ⟨live, heat, -, handOver⟩ :=
      enterState_powered .stopping (some (startTimer t (0 * 1000))) t powered (.refl s) rfl
    rw [e, ended _ _ live rfl]
    exact ⟨rfl, logged _ (by rw [live]) (by rw [live]) (by simp) (by simp),
      handOver.with_live _ (by rw [hostUp, live]; rfl), heat⟩

/-- HOST POWER OFF of an unpowered host (R91). -/
theorem doHostPowerOff_unpowered {c : Command} {n : Nat} {s : State} (delay : readBE c.args = n) (short : n ≤ 600)
    (off : hostPowerEnable s = false) :
    doHostPowerOff c s = if s.live.state = .coldHold ∨ s.live.state = .cycling then
      done (enterState .off none c.arrival s) [0] else refuse s .wrongState := by
  have code : stateCode (enterState .off none c.arrival s) = 0 := by
    rw [stateCode, enterState_state]
    rfl
  simp only [doHostPowerOff, delay, code]
  rw [if_neg (Nat.not_lt.2 short), if_neg (by simp [off])]
  simp

/-- Settles O54: each command by the states in which it acts. -/
theorem hostPowerCommands : Obligations.HostPowerCommands := by
  intro s s' q c
  have kept : ∀ {code p}, Takes code p c s s' → s'.live = s.live := fun takes => (takes_frame takes).2.2.2.1
  have powerKept : ∀ {code p}, Takes code p c s s' → hostPowerEnable s' = hostPowerEnable s := fun takes => by
    rw [hostPowerEnable, hostPowerEnable, kept takes]
  have delayed : ∀ hi lo : Byte, c.args = [hi, lo] → readBE c.args = (hi ++ lo).toNat := fun hi lo args => by
    rw [args, (readBE_two hi lo).2]
  refine ⟨fun kind takes permitted args small => ?_, fun kind takes permitted args large => ?_,
    fun hi lo takes args short => ⟨fun cold => ?_, fun off => ?_, fun running later => ?_, fun stopping later => ?_,
      fun powered now => ?_⟩, fun hi lo takes args long => ?_, fun takes permitted args => ?_⟩
  · rw [exec_hostRestart takes permitted args, doHostRestart_eq args, if_pos small, powerKept takes]
    split <;> rfl
  · rw [exec_hostRestart takes permitted args, doHostRestart_eq args, if_neg (Nat.not_le.2 large)]
    rfl
  · simp only [List.mem_cons, List.not_mem_nil, or_false, ← kept takes] at cold
    have off : s'.live.state.isPowered = false := by rcases cold with h | h <;> rw [h] <;> rfl
    rw [exec_hostPowerOff takes args, doHostPowerOff_unpowered (delayed hi lo args) short off, if_pos cold,
      enterState_plain .off none _ _ (.inr rfl) (.inl (not_hostUp_of_unpowered off))]
    rfl
  · simp only [List.mem_cons, List.not_mem_nil, or_false, ← kept takes] at off
    have unpowered : s'.live.state.isPowered = false := by rcases off with h | h | h <;> rw [h] <;> rfl
    rw [exec_hostPowerOff takes args, doHostPowerOff_unpowered (delayed hi lo args) short unpowered,
      if_neg (by rcases off with h | h | h <;> simp [h])]
    rfl
  · simp only [List.mem_cons, List.not_mem_nil, or_false, ← kept takes] at running
    have powered : hostPowerEnable s' = true := by
      rcases running with h | h | h | h | h <;> rw [hostPowerEnable, h] <;> rfl
    have other : s'.live.state ≠ .stopping := by rcases running with h | h | h | h | h <;> rw [h] <;> nofun
    have run := exec_hostPowerOff takes args
    rw [doHostPowerOff_powered (delayed hi lo args) short powered, startStop_delayed later _ other] at run
    obtain ⟨live, heat, -, handOver⟩ := enterState_powered .stopping
      (some ⟨c.arrival.ms, (hi ++ lo).toNat * 1000⟩) c.arrival powered (.refl s') rfl
    have code : ∀ tm, stateCode (enterState .stopping tm c.arrival s') = 8 := fun tm => by
      rw [stateCode, enterState_state]
      rfl
    have down : ∀ tm, hostUp (enterState .stopping tm c.arrival s') = false := fun tm => by
      rw [hostUp, enterState_state]
      rfl
    obtain ⟨-, -, -, live', tables, -, -, log, -, -, temp, -, -, -, -, heat'⟩ := takes_frame takes
    rw [code] at run
    exact ⟨_, run, live.trans (by rw [live']), fun up => handOver.leaves (by rwa [hostUp, live']) (down _), handOver,
      (enterState_log ..).trans log, (enterState_tables ..).trans tables, (enterState_temp ..).trans temp,
      heat.trans heat'⟩
  · rw [← kept takes] at stopping
    have code : byte s'.live.state.code = 8 := by rw [stopping]; rfl
    rw [exec_hostPowerOff takes args,
      doHostPowerOff_powered (delayed hi lo args) short (by rw [hostPowerEnable, stopping]; rfl),
      startStop_again later _ stopping, ← code]
    rfl
  · rw [← powerKept takes] at powered
    have run := exec_hostPowerOff takes args
    rw [doHostPowerOff_powered (delayed hi lo args) short powered, now] at run
    obtain ⟨live, log, handOver, heat⟩ := startStop_now c.arrival powered
    have code : stateCode (startStop 0 c.arrival s') = 0 := by
      rw [stateCode, live]
      rfl
    have down : hostUp (startStop 0 c.arrival s') = false := by
      rw [hostUp, live]
      rfl
    obtain ⟨-, -, -, live', tables, -, -, log', -, -, temp, -, -, -, -, heat'⟩ := takes_frame takes
    rw [code] at run
    refine ⟨_, run, live.trans (by rw [live']), log.trans ?_, fun up => handOver.leaves (by rwa [hostUp, live']) down,
      handOver, (startStop_tables ..).trans tables, (startStop_temp ..).trans temp, heat.trans heat'⟩
    rw [log', live', loggedBoardTemp, temp]
    rfl
  · have refused : doHostPowerOff c s' = refuse s' .badArgument := by
      simp only [doHostPowerOff, delayed hi lo args]
      exact if_pos long
    rw [exec_hostPowerOff takes args, refused]
    rfl
  · have released : doHostRelease c s' = if s.live.state = .off ∨ s.live.state = .latched then
        done (releaseHost c.arrival s') [stateCode (releaseHost c.arrival s')] else refuse s' .wrongState := by
      unfold doHostRelease
      rw [kept takes]
      cases s.live.state <;> simp [Liveness.isReleasable]
    rw [exec_hostRelease takes permitted args, released]
    split <;> rfl

end Sys2Proof.Machine
end

section
/-! SUPPORT. The swap of each table (O50) and COMMIT with its checks (O49). -/

namespace Sys2Proof.Machine

/-! ### The swap of a table (R48, R67, R93, R124) -/

theorem heaterAllowed_iff (s : State) (h : Heater) : heaterAllowed s h = true ↔
    hostPowerEnable s = false ∨ (settings s).hostLoad + heaterLoad (settings s) h ≤ (settings s).supplyCap := by
  simp [heaterAllowed]

/-- A channel that is not allowed is Blocked once the channels have been judged (R124). -/
theorem BlocksNotAllowed.blocked {s t : State} (judged : BlocksNotAllowed s t) {h : Heater}
    (barred : heaterAllowed t h = false) : (t.heat.channel h).blocked = true := by
  obtain ⟨heat, -⟩ := judged
  rw [heat]
  cases already : (s.heat.channel h).blocked <;> cases h <;>
    simp_all [HeatDrive.channel]

/-- What the swap of the Settings table changes (R93, R124). -/
theorem commitSettings_spec (s : State) :
    (commitSettings s).tables =
      { s.tables with settings := ⟨s.tables.settings.staging, s.tables.settings.staging⟩ } ∧
    (commitSettings s).live = { s.live with
      budget := s.live.budget.drop (s.live.budget.length - s.tables.settings.staging.maxRestarts.toNat) } ∧
    BlocksNotAllowed s (commitSettings s) ∧
    (commitSettings s).counters.liveness = (bumpBy Ctr.livenessBudgetEntriesExpired
      (s.live.budget.length - s.tables.settings.staging.maxRestarts.toNat) s).counters.liveness ∧
    commitSettings s = { s with
      tables := (commitSettings s).tables, live := (commitSettings s).live, heat := (commitSettings s).heat
      counters := { s.counters with
        liveness := (commitSettings s).counters.liveness, thermal := (commitSettings s).counters.thermal } } := by
  let v : State := trimBudget { s with tables.settings := s.tables.settings.committed }
  have blocks : BlocksNotAllowed s (blockNotAllowed v) := (blockNotAllowed_spec v).of_same rfl rfl
  have e : commitSettings s = blockNotAllowed v := rfl
  rw [e]
  rw [blockNotAllowed_eq v] at blocks ⊢
  exact ⟨rfl, rfl, blocks, rfl, rfl⟩

/-- Settles O50. -/
theorem swapRule : Obligations.SwapRule := by
  intro s
  obtain ⟨tables, live, blocks, count, frame⟩ := commitSettings_spec s
  have entry : ∀ e : ProxyId, (swapTable 7 s).proxy[e] =
      s.proxy[e].afterSetup s.tables.proxy.live[e] s.tables.proxy.staging[e] := fun e => by
    simp [swapTable, commitProxy, proxyAfterReload]
  refine ⟨rfl, rfl, rfl, rfl, rfl, ⟨_, rfl, tables, live, fun h barred => blocks.blocked barred, blocks, count, frame⟩,
    fun h => ?_, ⟨_, rfl, rfl, fun e valid topic => ?_, fun e h changed => ?_⟩⟩
  · rw [heaterAllowed_iff]
    cases h <;> rfl
  · rw [entry]
    exact if_pos ⟨valid, topic⟩
  · obtain ⟨active, -, emptied, unfilled⟩ := afterSetup_get s.proxy[e] s.tables.proxy.live[e]
      s.tables.proxy.staging[e] h
    have differs : ¬(s.tables.proxy.live[e].valid = s.tables.proxy.staging[e].valid ∧
        s.tables.proxy.live[e].topic = s.tables.proxy.staging[e].topic) := by
      rwa [not_and_or]
    rw [entry]
    refine ⟨?_, active, emptied differs, unfilled differs⟩
    rcases Nat.eq_zero_or_pos (s.proxy[e].get h).pins with none | some
    · rw [emptied differs none]
    · rw [unfilled differs some]

/-! ### COMMIT (R185, R187) -/

theorem exec_commit {q : Port} {c : Command} {table store : Byte} {s s' : State} (takes : Takes 0x04 q c s s')
    (permitted : Permitted q s) (frozen : s.mgmt.frozen = false) (args : c.args = [table, store]) :
    exec (.commit q) s =
      .next (replyTo 0x04 c (doCommit c s').result (doCommit c s').data (doCommit c s').state) := by
  have admitted := serve_admitted 0x04 .notFrozen q (withLength 2 doCommit) c s s' takes
    (refusal_notFrozen_takes takes permitted frozen)
  rw [withLength_eq (by rw [args]; rfl)] at admitted
  exact congrArg _ admitted

theorem storeBusy_iff (s : State) :
    storeBusy s = true ↔ s.store.writing.isSome = true ∨ s.mgmt.resetPending.isSome = true := by
  simp [storeBusy]

/-- COMMIT of a table by its arguments (R185). -/
theorem doCommit_eq {c : Command} {table store : Byte} (args : c.args = [table, store]) (s : State) :
    doCommit c s = if 1 ≤ table.toNat ∧ table.toNat ≤ 7 ∧ store.toNat ≤ 1 then
        if store = 1 ∧ (s.store.writing.isSome = true ∨ s.mgmt.resetPending.isSome = true) then refuse s .busy
        else match stagingFault table.toNat s.tables with
          | some f => ⟨s, .invalid, [table, byte f.1, byte f.2]⟩
          | none => done (if store = 1 then startStoreWrite table.toNat (swapTable table.toNat s)
              else swapTable table.toNat s)
      else refuse s .badArgument := by
  have first : c.arg 0 = table.toNat := arg_of_args args 0
  have second : c.arg 1 = store.toNat := arg_of_args args 1
  have one : store.toNat = 1 ↔ store = 1 := ⟨fun h => BitVec.eq_of_toNat_eq h, fun h => h ▸ rfl⟩
  have code : byte table.toNat = table := by simp [byte]
  unfold doCommit
  simp only [first, second, one, code, storeBusy_iff]
  cases stagingFault table.toNat s.tables <;> rfl

/-! ### The checks of a staging copy (R47, R66, R170, R185) -/

theorem firstFault_eq_none_iff {n : Nat} (f : Fin n → Option Nat) : firstFault f = none ↔ ∀ i, f i = none := by
  simp [firstFault]

/-- The first fault of a check with one reason. -/
theorem firstFault_single {n : Nat} {f : Fin n → Option Nat} {faulty : Fin n → Prop}
    (one : ∀ i, faulty i → f i = some 1) (none : ∀ i, ¬faulty i → f i = none) :
    (∀ (i : Fin n) (r : Nat), firstFault f = some (i.val, r) ↔ r = 1 ∧ faulty i ∧ ∀ j, j < i → ¬faulty j) ∧
    (firstFault f = Option.none ↔ ∀ i, ¬faulty i) := by
  have isNone : ∀ i, f i = Option.none ↔ ¬faulty i := fun i =>
    ⟨fun h faulted => by simp [one i faulted] at h, none i⟩
  refine ⟨fun i r => ?_, ?_⟩
  · rw [firstFault_iff]
    simp only [isNone]
    constructor
    · rintro ⟨found, before⟩
      by_cases faulted : faulty i
      · rw [one i faulted] at found
        exact ⟨(Option.some.inj found).symm, faulted, before⟩
      · rw [none i faulted] at found
        cases found
    · rintro ⟨rfl, faulted, before⟩
      exact ⟨one i faulted, before⟩
  · rw [firstFault_eq_none_iff]
    exact forall_congr' isNone

theorem members_nodup_iff (e : ChordEntry) :
    ¬e.members.Nodup ↔ e.first = e.second ∨ e.third = some e.first ∨ e.third = some e.second := by
  cases third : e.third with
  | none => simp [ChordEntry.members, third]
  | some k =>
    simp only [ChordEntry.members, third, Option.toList_some, List.nodup_cons, List.mem_cons, List.not_mem_nil]
    simp only [Option.some.injEq]
    tauto

/-- Settles O49: COMMIT by its arguments, then the checks entry by entry. -/
theorem commitRule : Obligations.CommitRule := by
  refine ⟨fun s s' q c table store takes permitted frozen args low high small => ?_,
    fun s s' q c table store takes permitted frozen args bad => ?_, fun tb => ⟨⟨rfl, rfl, rfl, rfl, rfl, rfl, rfl⟩,
      ⟨rfl, rfl, rfl, rfl, rfl, rfl, rfl⟩⟩, fun t => ⟨fun i r => firstFault_iff _ i r, firstFault_eq_none_iff _⟩,
    fun e => ?_, fun t => ?_, fun t => ?_, fun t => rfl⟩
  · have run := exec_commit takes permitted frozen args
    obtain ⟨-, -, reset, -, tables, -, writing, -⟩ := takes_frame takes
    rw [doCommit_eq args, if_pos ⟨low, high, small⟩, writing, reset, tables] at run
    by_cases busy : store = 1 ∧ (s.store.writing.isSome = true ∨ s.mgmt.resetPending.isSome = true)
    · rw [if_pos busy] at run ⊢
      exact run
    · rw [if_neg busy] at run ⊢
      cases fault : stagingFault table.toNat s.tables with
      | some f =>
        rw [fault] at run
        exact run
      | none =>
        rw [fault] at run
        exact run
  · rw [exec_commit takes permitted frozen args, doCommit_eq args, if_neg]
    · rfl
    · rintro ⟨low, high, small⟩
      rcases bad with rfl | bad | bad
      · exact absurd low (by decide)
      · omega
      · omega
  · simp [RouteEntry.fault, imp_iff_not_or, or_assoc]
  · refine firstFault_single (f := fun i => t[i].fault) (fun i h => ?_) (fun i h => ?_)
    · rw [← members_nodup_iff] at h
      simpa [ChordEntry.fault] using h
    · rw [← members_nodup_iff] at h
      simpa [ChordEntry.fault] using h
  · refine firstFault_single (f := proxyEntryFault t) (fun i h => ?_) (fun i h => ?_)
    · obtain ⟨valid, j, before, validBefore, topic⟩ := h
      refine if_pos ?_
      simp only [Bool.and_eq_true, List.any_eq_true, decide_eq_true_eq, beq_iff_eq]
      exact ⟨valid, j, List.mem_finRange j, ⟨before, validBefore⟩, topic⟩
    · refine if_neg fun found => h ?_
      simp only [Bool.and_eq_true, List.any_eq_true, decide_eq_true_eq, beq_iff_eq] at found
      obtain ⟨valid, j, -, ⟨before, validBefore⟩, topic⟩ := found
      exact ⟨valid, j, before, validBefore, topic⟩

end Sys2Proof.Machine
end

section
/-! SUPPORT. WRITE ENTRY and DISCARD (O48). -/

namespace Sys2Proof.Machine

/-! ### Codes and their lists (section 9.8) -/

theorem classMatch_ofCode (n : Nat) :
    ClassMatch.ofCode n = ([.request, .reply, .notice, .any] : List ClassMatch)[n]? := by
  match n with
  | 0 | 1 | 2 | 3 => rfl
  | n + 4 => simp [ClassMatch.ofCode]

theorem stationMatch_ofCode (n : Nat) :
    StationMatch.ofCode n = ([.own, .broadcast, .any] : List StationMatch)[n]? := by
  match n with
  | 0 | 1 | 2 => rfl
  | n + 3 => simp [StationMatch.ofCode]

theorem routeAction_ofCode (n : Nat) :
    RouteAction.ofCode n = ([.forward, .drop, .answer] : List RouteAction)[n]? := by
  match n with
  | 0 | 1 | 2 => rfl
  | n + 3 => simp [RouteAction.ofCode]

theorem chordAction_ofCode (n : Nat) : ChordAction.ofCode n =
    ([.restartHost, .powerCycleHost, .releaseHost, .grantPermit, .flagPattern, .noticeOnly] :
      List ChordAction)[n]? := by
  match n with
  | 0 | 1 | 2 | 3 | 4 | 5 => rfl
  | n + 6 => simp [ChordAction.ofCode]

/-- The clamp report of a written value (R184). -/
theorem clampReport {α : Type} [DecidableEq α] (y x : α) : byte (bit (y != x)) = if y = x then 0 else 1 := by
  by_cases h : y = x <;> simp [h, bit, byte]

/-! ### WRITE ENTRY by its arguments (R184) -/

theorem exec_writeEntry {q : Port} {c : Command} {s s' : State} (takes : Takes 0x03 q c s s')
    (permitted : Permitted q s) (frozen : s.mgmt.frozen = false) :
    exec (.writeEntry q) s =
      .next (replyTo 0x03 c (doWriteEntry c s').result (doWriteEntry c s').data (doWriteEntry c s').state) :=
  congrArg _ (serve_admitted 0x03 .notFrozen q doWriteEntry c s s' takes
    (refusal_notFrozen_takes takes permitted frozen))

/-- The arguments are a table, an index and an entry of the table's write size. -/
structure WritesEntry (c : Command) (table index : Nat) (bs : List Byte) : Prop where
  args : c.args = byte table :: byte index :: bs
  table_lt : table < 256
  index_lt : index < 256
  size : writeSize table = some bs.length

theorem doWriteEntry_eq {c : Command} {table index : Nat} {bs : List Byte} (h : WritesEntry c table index bs)
    (s : State) : doWriteEntry c s = (match writeStaging table index bs s.tables with
      | some (tb, clamped) => done { s with tables := tb } [byte (bit clamped)]
      | none => refuse s .badArgument) := by
  obtain ⟨args, tableLt, indexLt, size⟩ := h
  have first : c.arg 0 = table := (arg_of_args args 0).trans (byte_toNat _ tableLt)
  have second : c.arg 1 = index := (arg_of_args args 1).trans (byte_toNat _ indexLt)
  have ok : writeLengthOk c = true := by simp [writeLengthOk, first, size, args]
  rw [doWriteEntry, if_pos ok, first, second, args]
  rfl

section
variable {q : Port} {c : Command} {s s' : State} {table index : Nat} {bs : List Byte}

/-- An entry that is written, and the state after it. -/
theorem writeEntry_written (takes : Takes 0x03 q c s s') (permitted : Permitted q s) (frozen : s.mgmt.frozen = false)
    (writes : WritesEntry c table index bs) {tb : Tables} {clamped : Bool}
    (written : writeStaging table index bs s'.tables = some (tb, clamped)) :
    exec (.writeEntry q) s = .next (replyTo 0x03 c .done [byte (bit clamped)] { s' with tables := tb }) := by
  rw [exec_writeEntry takes permitted frozen, doWriteEntry_eq writes, written]
  rfl

theorem writeEntry_unclamped (takes : Takes 0x03 q c s s') (permitted : Permitted q s)
    (frozen : s.mgmt.frozen = false) (writes : WritesEntry c table index bs) {tb : Tables}
    (written : writeStaging table index bs s'.tables = some (tb, false)) :
    exec (.writeEntry q) s = .next (replyTo 0x03 c .done [0] { s' with tables := tb }) := by
  have stored := writeEntry_written takes permitted frozen writes written
  rwa [show byte (bit false) = 0 by decide] at stored

theorem writeEntry_refused (takes : Takes 0x03 q c s s') (permitted : Permitted q s) (frozen : s.mgmt.frozen = false)
    (writes : WritesEntry c table index bs) (refused : writeStaging table index bs s'.tables = none) :
    exec (.writeEntry q) s = .next (replyTo 0x03 c .badArgument [] s') := by
  rw [exec_writeEntry takes permitted frozen, doWriteEntry_eq writes, refused]
  rfl

end

/-- No entry stands at an index outside the table (R183, R184). -/
theorem writeStaging_outside {table index : Nat} (h : entryCount table ≤ index) (bs : List Byte) (tb : Tables) :
    writeStaging table index bs tb = none := by
  match table with
  | 0 => rfl
  | 1 | 2 | 3 | 4 | 5 | 6 | 7 => exact dif_neg (Nat.not_lt.2 h)
  | n + 8 => rfl

/-- The write size of each table, as a list (section 9.4). -/
theorem writeSize_eq (table n : Nat) (h : writeSize table = some n) :
    n = ([0, 10, 3, 10, 2, 2, 4, 4] : List Nat).getD table 0 := by
  match table with
  | 0 => cases h
  | 1 | 2 | 3 | 4 | 5 | 6 | 7 => exact (Option.some.inj h).symm
  | n + 8 => cases h

theorem writeEntry_malformed {q : Port} {c : Command} {s s' : State} (takes : Takes 0x03 q c s s')
    (permitted : Permitted q s) (frozen : s.mgmt.frozen = false)
    (bad : entryCount (byteAt c.args 0).toNat ≤ (byteAt c.args 1).toNat ∨
      c.args.length ≠ 2 + ([0, 10, 3, 10, 2, 2, 4, 4] : List Nat).getD (byteAt c.args 0).toNat 0) :
    exec (.writeEntry q) s = .next (replyTo 0x03 c .badArgument [] s') := by
  have refused : doWriteEntry c s' = refuse s' .badArgument := by
    unfold doWriteEntry
    split
    · rename_i ok
      rcases bad with outside | length
      · rw [show writeStaging (c.arg 0) (c.arg 1) _ s'.tables = none from writeStaging_outside outside _ _]
      · exfalso
        unfold writeLengthOk at ok
        cases size : writeSize (c.arg 0) with
        | none => simp [size] at ok
        | some n =>
          have := writeSize_eq _ _ size
          simp only [size, beq_iff_eq] at ok
          exact length (by rw [ok, this, Nat.add_comm]; rfl)
    · rfl
  rw [exec_writeEntry takes permitted frozen, refused]
  rfl

/-! ### DISCARD (R183) -/

theorem exec_discard {q : Port} {c : Command} {table : Byte} {s s' : State} (takes : Takes 0x05 q c s s')
    (permitted : Permitted q s) (frozen : s.mgmt.frozen = false) (args : c.args = [table]) :
    exec (.discard q) s = (match discardStaging table.toNat s'.tables with
      | some tb => .next (replyTo 0x05 c .done [] { s' with tables := tb })
      | none => .next (replyTo 0x05 c .badArgument [] s')) := by
  have admitted := serve_admitted 0x05 .notFrozen q (withLength 1 doDiscard) c s s' takes
    (refusal_notFrozen_takes takes permitted frozen)
  rw [withLength_eq (by rw [args]; rfl), doDiscard, arg_of_args args 0] at admitted
  refine (congrArg _ admitted).trans ?_
  show Host.Outcome.next _ = _
  cases found : discardStaging table.toNat s'.tables with
  | some tb =>
    rw [show discardStaging (byteAt [table] 0).toNat s'.tables = some tb from found]
    rfl
  | none =>
    rw [show discardStaging (byteAt [table] 0).toNat s'.tables = none from found]
    rfl

/-! ### The written entries by their bytes (section 9.8) -/

theorem readInt16_bytes (hi lo : Byte) : readInt16 [hi, lo] = (hi ++ lo).toInt :=
  congrArg BitVec.toInt (readBE_two hi lo).1

theorem routeEntry_decode (b0 b1 b2 b3 b4 b5 b6 b7 b8 b9 : Byte) :
    RouteEntry.decode [b0, b1, b2, b3, b4, b5, b6, b7, b8, b9] =
      (([.request, .reply, .notice, .any] : List ClassMatch)[b1.toNat]?).bind fun cls =>
      (([.own, .broadcast, .any] : List StationMatch)[b2.toNat]?).bind fun station =>
      (([.forward, .drop, .answer] : List RouteAction)[b6.toNat]?).map fun action =>
        ⟨b0.getLsbD 0, if b0.getLsbD 1 then .host else .field, cls, station, b3, b4, ⟨b5.setWidth 4, b5.msb⟩, action,
          b0.getLsbD 2, b0.getLsbD 3, b7 ++ b8⟩ := by
  rw [← classMatch_ofCode, ← stationMatch_ofCode, ← routeAction_ofCode, ← (readBE_two b7 b8).1]
  show (ClassMatch.ofCode b1.toNat).bind _ = _
  congr 1
  funext cls
  show (StationMatch.ofCode b2.toNat).bind _ = _
  congr 1
  funext station
  show (RouteAction.ofCode b6.toNat).bind _ = _
  rw [Option.map_eq_bind]
  rfl

/-- The third member of a Chord entry: none for 255 (section 9.8). -/
def chordThird (b : Byte) : Option (Option KeyPos) :=
  if b = 255 then some none else (keyPosOfNat b.toNat).map some

theorem chordEntry_decode (b0 b1 b2 b3 b4 b5 b6 b7 b8 b9 : Byte) :
    ChordEntry.decode [b0, b1, b2, b3, b4, b5, b6, b7, b8, b9] =
      (keyPosOfNat b1.toNat).bind fun first => (keyPosOfNat b2.toNat).bind fun second =>
      (chordThird b3).bind fun third =>
      (([.restartHost, .powerCycleHost, .releaseHost, .grantPermit, .flagPattern, .noticeOnly] :
        List ChordAction)[b7.toNat]?).map fun action =>
        (⟨b0.getLsbD 0, first, second, third, max 500 (min 10000 (b4 ++ b5).toNat), ⟨b6.setWidth 4, b6.msb⟩, action,
          b8 ++ b9⟩, max 500 (min 10000 (b4 ++ b5).toNat) != (b4 ++ b5).toNat) := by
  rw [← chordAction_ofCode, ← (readBE_two b8 b9).1, ← (readBE_two b4 b5).2]
  show (keyPosOfNat b1.toNat).bind _ = _
  congr 1
  funext first
  show (keyPosOfNat b2.toNat).bind _ = _
  congr 1
  funext second
  rw [chordThird]
  by_cases isNone : b3 = 255
  · rw [if_pos isNone]
    refine (if_pos isNone).trans ?_
    show (ChordAction.ofCode b7.toNat).bind _ = Option.map _ _
    rw [Option.map_eq_bind]
    rfl
  · rw [if_neg isNone]
    refine (if_neg isNone).trans ?_
    show ((keyPosOfNat b3.toNat).map some).bind _ = _
    congr 1
    funext third
    show (ChordAction.ofCode b7.toNat).bind _ = _
    rw [Option.map_eq_bind]
    rfl

theorem chordThird_outside {b : Byte} (notNone : b ≠ 255) (high : 48 ≤ b.toNat) : chordThird b = none := by
  rw [chordThird, if_neg notNone, keyPosOfNat, dif_neg (Nat.not_lt.2 high)]
  rfl

theorem chordThird_member {b : Byte} {third : KeyPos} (h : keyPosOfNat b.toNat = some third) :
    chordThird b = some (some third) := by
  have notNone : b ≠ 255 := by
    rintro rfl
    cases h
  rw [chordThird, if_neg notNone, h]
  rfl

section
variable (tb : Tables) (bs : List Byte)

theorem writeStaging_route (i : RouteId) : writeStaging 1 i bs tb = (RouteEntry.decode bs).map fun e =>
    ({ tb with route.staging := tb.route.staging.set i e }, false) := dif_pos i.isLt

theorem writeStaging_keyMap (i : KeyPos) : writeStaging 2 i bs tb =
    some ({ tb with keyMap.staging := tb.keyMap.staging.set i (KeyMapEntry.decode bs) }, false) := dif_pos i.isLt

theorem writeStaging_chord (i : ChordId) : writeStaging 3 i bs tb = (ChordEntry.decode bs).map fun e =>
    ({ tb with chord.staging := tb.chord.staging.set i e.1 }, e.2) := dif_pos i.isLt

theorem writeStaging_curveA (i : Fin 17) : writeStaging 4 i bs tb = some
    ({ tb with curveA.staging := tb.curveA.staging.set i (clampPoint (readInt16 bs)) },
      clampPoint (readInt16 bs) != readInt16 bs) := dif_pos i.isLt

theorem writeStaging_curveB (i : Fin 17) : writeStaging 5 i bs tb = some
    ({ tb with curveB.staging := tb.curveB.staging.set i (clampPoint (readInt16 bs)) },
      clampPoint (readInt16 bs) != readInt16 bs) := dif_pos i.isLt

theorem writeStaging_setting (i : Fin 61) : writeStaging 6 i bs tb = some
    ({ tb with settings.staging := tb.settings.staging.set i (clampSetting i (readInt32 bs)) },
      clampSetting i (readInt32 bs) != readInt32 bs) := dif_pos i.isLt

theorem writeStaging_proxy (i : ProxyId) : writeStaging 7 i bs tb =
    some ({ tb with proxy.staging := tb.proxy.staging.set i (ProxySetup.decode bs) }, false) := dif_pos i.isLt

end

section
variable {q : Port} {c : Command} {s s' : State}

theorem writeEntry_setting {i : Fin 61} {b0 b1 b2 b3 : Byte} (takes : Takes 0x03 q c s s') (permitted : Permitted q s)
    (frozen : s.mgmt.frozen = false) (args : c.args = [6, byte i, b0, b1, b2, b3]) :
    let x := (b0 ++ b1 ++ b2 ++ b3).toInt
    exec (.writeEntry q) s = .next (replyTo 0x03 c .done [if clampSetting i x = x then 0 else 1] { s' with
      tables := { s'.tables with settings :=
        { s'.tables.settings with staging := s'.tables.settings.staging.set i (clampSetting i x) } } }) := by
  intro x
  rw [← clampReport]
  refine writeEntry_written takes permitted frozen
    ⟨args, by decide, Nat.lt_trans i.isLt (by decide), rfl⟩ ?_
  rw [writeStaging_setting, readInt32_bytes]

theorem writeEntry_route {i : RouteId} {b0 b1 b2 b3 b4 b5 b6 b7 b8 b9 : Byte} (takes : Takes 0x03 q c s s')
    (permitted : Permitted q s) (frozen : s.mgmt.frozen = false)
    (args : c.args = [1, byte i, b0, b1, b2, b3, b4, b5, b6, b7, b8, b9]) :
    match ([.request, .reply, .notice, .any] : List ClassMatch)[b1.toNat]?,
      ([.own, .broadcast, .any] : List StationMatch)[b2.toNat]?,
      ([.forward, .drop, .answer] : List RouteAction)[b6.toNat]? with
    | some cls, some station, some action => exec (.writeEntry q) s = .next (replyTo 0x03 c .done [0] { s' with
        tables := { s'.tables with
          route.staging := s'.tables.route.staging.set i
            ⟨b0.getLsbD 0, if b0.getLsbD 1 then .host else .field, cls, station, b3, b4, ⟨b5.setWidth 4, b5.msb⟩,
              action, b0.getLsbD 2, b0.getLsbD 3, b7 ++ b8⟩ } })
    | _, _, _ => exec (.writeEntry q) s = .next (replyTo 0x03 c .badArgument [] s') := by
  have entry : WritesEntry c 1 i [b0, b1, b2, b3, b4, b5, b6, b7, b8, b9] :=
    ⟨args, by decide, Nat.lt_trans i.isLt (by decide), rfl⟩
  have staged := writeStaging_route s'.tables [b0, b1, b2, b3, b4, b5, b6, b7, b8, b9] i
  rw [routeEntry_decode] at staged
  split
  · rename_i cls station action hcls hstation haction
    rw [hcls, hstation, haction] at staged
    exact writeEntry_unclamped takes permitted frozen entry staged
  · rename_i unlisted
    refine writeEntry_refused takes permitted frozen entry (staged.trans ?_)
    cases hcls : ([.request, .reply, .notice, .any] : List ClassMatch)[b1.toNat]? with
    | none => rfl
    | some cls =>
      cases hstation : ([.own, .broadcast, .any] : List StationMatch)[b2.toNat]? with
      | none => rfl
      | some station =>
        cases haction : ([.forward, .drop, .answer] : List RouteAction)[b6.toNat]? with
        | none => rfl
        | some action => exact absurd haction (unlisted _ _ _ hcls hstation)

theorem writeEntry_chord {i : ChordId} {b0 b1 b2 b3 b4 b5 b6 b7 b8 b9 : Byte} {first second : KeyPos}
    {third : Option KeyPos} {action : ChordAction} (takes : Takes 0x03 q c s s') (permitted : Permitted q s)
    (frozen : s.mgmt.frozen = false) (args : c.args = [3, byte i, b0, b1, b2, b3, b4, b5, b6, b7, b8, b9])
    (hfirst : keyPosOfNat b1.toNat = some first) (hsecond : keyPosOfNat b2.toNat = some second)
    (hthird : chordThird b3 = some third)
    (haction : ([.restartHost, .powerCycleHost, .releaseHost, .grantPermit, .flagPattern, .noticeOnly] :
      List ChordAction)[b7.toNat]? = some action) :
    let hold := (b4 ++ b5).toNat
    let clamped := max 500 (min 10000 hold)
    exec (.writeEntry q) s = .next (replyTo 0x03 c .done [if clamped = hold then 0 else 1] { s' with
      tables := { s'.tables with
        chord.staging := s'.tables.chord.staging.set i
          ⟨b0.getLsbD 0, first, second, third, clamped, ⟨b6.setWidth 4, b6.msb⟩, action, b8 ++ b9⟩ } }) := by
  intro hold clamped
  rw [← clampReport]
  refine writeEntry_written takes permitted frozen
    ⟨args, by decide, Nat.lt_trans i.isLt (by decide), rfl⟩ ?_
  rw [writeStaging_chord, chordEntry_decode, hfirst, hsecond, hthird, haction]
  rfl

/-- A Chord entry with a member or an action outside its list is refused. -/
theorem writeEntry_chord_refused {i : ChordId} {b0 b1 b2 b3 b4 b5 b6 b7 b8 b9 : Byte} (takes : Takes 0x03 q c s s')
    (permitted : Permitted q s) (frozen : s.mgmt.frozen = false)
    (args : c.args = [3, byte i, b0, b1, b2, b3, b4, b5, b6, b7, b8, b9])
    (outside : ChordEntry.decode [b0, b1, b2, b3, b4, b5, b6, b7, b8, b9] = none) :
    exec (.writeEntry q) s = .next (replyTo 0x03 c .badArgument [] s') := by
  refine writeEntry_refused takes permitted frozen
    ⟨args, by decide, Nat.lt_trans i.isLt (by decide), rfl⟩ ?_
  rw [writeStaging_chord, outside]
  rfl

/-- An entry of a curve as written, in either curve. -/
theorem writeEntry_point {table : Nat} {i : Fin 17} {hi lo : Byte} (put : Int → Tables) (takes : Takes 0x03 q c s s')
    (permitted : Permitted q s) (frozen : s.mgmt.frozen = false) (args : c.args = [byte table, byte i, hi, lo])
    (low : table < 256) (size : writeSize table = some 2)
    (staged : writeStaging table i [hi, lo] s'.tables =
      some (put (clampPoint (readInt16 [hi, lo])), clampPoint (readInt16 [hi, lo]) != readInt16 [hi, lo])) :
    let x := (hi ++ lo).toInt
    exec (.writeEntry q) s = .next (replyTo 0x03 c .done [if clampPoint x = x then 0 else 1]
      { s' with tables := put (clampPoint x) }) := by
  intro x
  rw [← clampReport]
  refine writeEntry_written takes permitted frozen ⟨args, low, Nat.lt_trans i.isLt (by decide), size⟩ ?_
  rw [staged, readInt16_bytes]

end

/-- Settles O48: the entry of each table by its bytes. -/
theorem stagingRule : Obligations.StagingRule := by
  refine ⟨fun s s' q c i b0 b1 b2 b3 takes permitted frozen args => ?_,
    fun s s' q c table takes permitted frozen args low high => ?_, fun s s' q c takes permitted frozen => ?_,
    fun s s' q c table takes permitted frozen args bad => ?_⟩
  · exact writeEntry_setting takes permitted frozen args
  · have tables : ∀ t : Byte, 1 ≤ t.toNat → t.toNat ≤ 7 → t ∈ ([1, 2, 3, 4, 5, 6, 7] : List Byte) := by decide
    rw [exec_discard takes permitted frozen args]
    have known := tables table low high
    simp only [List.mem_cons, List.not_mem_nil, or_false] at known
    rcases known with rfl | rfl | rfl | rfl | rfl | rfl | rfl <;> rfl
  · refine ⟨fun i b0 b1 b2 b3 b4 b5 b6 b7 b8 b9 args => ?_, fun i b0 b1 b2 args => ?_,
      fun i b0 b1 b2 b3 b4 b5 b6 b7 b8 b9 args => ?_, fun i hi lo => ⟨fun args => ?_, fun args => ?_⟩,
      fun i b0 b1 b2 b3 args => ?_, writeEntry_malformed takes permitted frozen⟩
    · exact writeEntry_route takes permitted frozen args
    · exact writeEntry_unclamped takes permitted frozen ⟨args, by decide, Nat.lt_trans i.isLt (by decide), rfl⟩
        (writeStaging_keyMap ..)
    · have decoded := chordEntry_decode b0 b1 b2 b3 b4 b5 b6 b7 b8 b9
      split
      · rename_i first second action hfirst hsecond haction
        refine ⟨fun isNone => ?_, fun third hthird => ?_, fun notNone high => ?_⟩
        · exact writeEntry_chord takes permitted frozen args hfirst hsecond (if_pos isNone) haction
        · exact writeEntry_chord takes permitted frozen args hfirst hsecond (chordThird_member hthird) haction
        · refine writeEntry_chord_refused takes permitted frozen args ?_
          rw [decoded, hfirst, hsecond, chordThird_outside notNone high]
          rfl
      · rename_i unlisted
        refine writeEntry_chord_refused takes permitted frozen args (decoded.trans ?_)
        cases hfirst : keyPosOfNat b1.toNat with
        | none => rfl
        | some first =>
          cases hsecond : keyPosOfNat b2.toNat with
          | none => rfl
          | some second =>
            cases haction : ([.restartHost, .powerCycleHost, .releaseHost, .grantPermit, .flagPattern, .noticeOnly] :
                List ChordAction)[b7.toNat]? with
            | none => cases chordThird b3 <;> rfl
            | some action => exact absurd haction (unlisted _ _ _ hfirst hsecond)
    · exact writeEntry_point (table := 4)
        (fun y => { s'.tables with curveA.staging := s'.tables.curveA.staging.set i y }) takes permitted frozen args
        (by decide) rfl (writeStaging_curveA ..)
    · exact writeEntry_point (table := 5)
        (fun y => { s'.tables with curveB.staging := s'.tables.curveB.staging.set i y }) takes permitted frozen args
        (by decide) rfl (writeStaging_curveB ..)
    · rw [← (readBE_two b2 b3).1]
      exact writeEntry_unclamped takes permitted frozen ⟨args, by decide, Nat.lt_trans i.isLt (by decide), rfl⟩
        (writeStaging_proxy ..)
  · have unknown : discardStaging table.toNat s'.tables = none := by
      rcases bad with rfl | beyond
      · rfl
      · obtain ⟨n, hn⟩ := Nat.exists_eq_add_of_le (show 8 ≤ table.toNat from beyond)
        rw [hn, Nat.add_comm]
        rfl
    rw [exec_discard takes permitted frozen args, unknown]

end Sys2Proof.Machine
end

section
/-! SUPPORT. The reading commands and the layouts of section 9.8 (O47). -/

namespace Sys2Proof.Machine

/-! ### Rows of a fixed argument length (R177) -/

section
variable {code : Nat} {k : Permission} {q : Port} {c : Command} {s s' : State} {n : Nat}
  {act : Command → State → Answer}

theorem serve_rightLength (takes : Takes code q c s s') (admitted : k.refusal q s' = none)
    (length : c.args.length = n) : serve code k q (withLength n act) s =
      replyTo code c (act c s').result (act c s').data (act c s').state := by
  rw [serve_admitted _ _ _ _ _ _ _ takes admitted, withLength_eq length]

theorem serve_wrongLength (takes : Takes code q c s s') (admitted : k.refusal q s' = none)
    (length : c.args.length ≠ n) : serve code k q (withLength n act) s = replyTo code c .badArgument [] s' := by
  rw [serve_admitted _ _ _ _ _ _ _ takes admitted, withLength, if_neg length]
  rfl

end

theorem bit_byte_toNat (k : Bool) : (byte (bit k)).toNat = bit k := by cases k <;> rfl

/-! ### STATUS and READ LOG (R181, R95) -/

section
variable {q : Port} {c : Command} {s s' : State}

theorem exec_status {part : Byte} (takes : Takes 0x01 q c s s') (args : c.args = [part]) : exec (.status q) s =
    .next (replyTo 0x01 c (doStatus c s').result (doStatus c s').data (doStatus c s').state) :=
  congrArg _ (serve_rightLength takes rfl (by rw [args]; rfl))

theorem status_part0 (takes : Takes 0x01 q c s s') (args : c.args = [0]) :
    exec (.status q) s = .next (replyTo 0x01 c .done (statusPart0 c.arrival s') s') := by
  rw [exec_status takes args, doStatus, arg_of_args args]
  rfl

theorem status_part1 (takes : Takes 0x01 q c s s') (args : c.args = [1]) :
    exec (.status q) s = .next (replyTo 0x01 c .done (statusPart1 c.arrival s') s') := by
  rw [exec_status takes args, doStatus, arg_of_args args]
  rfl

theorem status_badPart {part : Byte} (takes : Takes 0x01 q c s s') (args : c.args = [part]) (beyond : 1 < part.toNat) :
    exec (.status q) s = .next (replyTo 0x01 c .badArgument [] s') := by
  obtain ⟨n, hn⟩ := Nat.exists_eq_add_of_le (show 2 ≤ part.toNat from beyond)
  have value : c.arg 0 = n + 2 := (arg_of_args args 0).trans (hn.trans (Nat.add_comm 2 n))
  rw [exec_status takes args, doStatus, value]
  rfl

theorem exec_readLog {i : Byte} (takes : Takes 0x0C q c s s') (args : c.args = [i]) : exec (.readLog q) s =
    (match s.log.records.reverse[i.toNat]? with
      | some r => .next (replyTo 0x0C c .done (r.encode ++ [byte s.log.records.length]) s')
      | none => .next (replyTo 0x0C c .badArgument [] s')) := by
  obtain ⟨-, -, -, -, -, -, -, log, -⟩ := takes_frame takes
  have admitted := serve_rightLength (k := .open) (act := doReadLog) takes rfl
    (show c.args.length = 1 by rw [args]; rfl)
  rw [doReadLog, arg_of_args args 0, log, show byteAt [i] 0 = i from rfl] at admitted
  refine (congrArg Host.Outcome.next admitted).trans ?_
  cases s.log.records.reverse[i.toNat]? <;> rfl

/-! ### READ ENTRY (R183) -/

theorem exec_readEntry {table index copy : Byte} (takes : Takes 0x02 q c s s') (args : c.args = [table, index, copy]) :
    exec (.readEntry q) s =
      .next (replyTo 0x02 c (doReadEntry c s').result (doReadEntry c s').data (doReadEntry c s').state) :=
  congrArg _ (serve_rightLength takes rfl (by rw [args]; rfl))

theorem readEntry_done {table index : Byte} {k : Bool} {bytes : List Byte} (takes : Takes 0x02 q c s s')
    (args : c.args = [table, index, byte (bit k)]) (found : entryBytes table.toNat index.toNat k s' = some bytes) :
    exec (.readEntry q) s = .next (replyTo 0x02 c .done bytes s') := by
  have answer : doReadEntry c s' = done s' bytes := by
    have third : c.arg 2 = bit k := (arg_of_args args 2).trans (bit_byte_toNat k)
    have copy : (bit k == 1) = k := by cases k <;> rfl
    have small : bit k ≤ 1 := by cases k <;> decide
    rw [doReadEntry, third, if_pos small, copy, arg_of_args args 0, arg_of_args args 1]
    exact (congrArg (fun b => match b with
      | some bytes => done s' bytes
      | none => refuse s' .badArgument) found)
  rw [exec_readEntry takes args, answer]
  rfl

/-- No entry is read at an index outside the table (R183). -/
theorem entryBytes_outside {table index : Nat} (h : entryCount table ≤ index) (k : Bool) (s : State) :
    entryBytes table index k s = none := by
  match table with
  | 0 => rfl
  | 1 | 2 | 3 | 4 | 5 | 6 | 7 => exact dif_neg (Nat.not_lt.2 h)
  | n + 8 => rfl

theorem readEntry_bad {table index copy : Byte} (takes : Takes 0x02 q c s s') (args : c.args = [table, index, copy])
    (bad : 1 < copy.toNat ∨ entryCount table.toNat ≤ index.toNat) :
    exec (.readEntry q) s = .next (replyTo 0x02 c .badArgument [] s') := by
  have answer : doReadEntry c s' = refuse s' .badArgument := by
    unfold doReadEntry
    split
    · rename_i small
      rcases bad with beyond | outside
      · exact absurd ((arg_of_args args 2).symm.trans_le small) (Nat.not_le.2 beyond)
      · have arg0 : c.arg 0 = table.toNat := arg_of_args args 0
        have arg1 : c.arg 1 = index.toNat := arg_of_args args 1
        rw [arg0, arg1, entryBytes_outside outside]
    · rfl
  rw [exec_readEntry takes args, answer]
  rfl

end

section
variable (k : Bool) (s : State)

theorem entryBytes_route (i : RouteId) : entryBytes 1 i k s =
    some ((s.tables.route.copy k)[i].encode ++ be16 (if k = true then 0 else s.tables.hits[i].toNat)) :=
  dif_pos i.isLt

theorem entryBytes_keyMap (i : KeyPos) : entryBytes 2 i k s = some (s.tables.keyMap.copy k)[i].encode :=
  dif_pos i.isLt

theorem entryBytes_chord (i : ChordId) : entryBytes 3 i k s = some (s.tables.chord.copy k)[i].encode :=
  dif_pos i.isLt

theorem entryBytes_curveA (i : Fin 17) : entryBytes 4 i k s = some (beInt16 (s.tables.curveA.copy k)[i]) :=
  dif_pos i.isLt

theorem entryBytes_curveB (i : Fin 17) : entryBytes 5 i k s = some (beInt16 (s.tables.curveB.copy k)[i]) :=
  dif_pos i.isLt

theorem entryBytes_settings (i : Fin 61) : entryBytes 6 i k s = some (beInt32 (s.tables.settings.copy k)[i]) :=
  dif_pos i.isLt

theorem entryBytes_proxy (i : ProxyId) : entryBytes 7 i k s = some ((s.tables.proxy.copy k)[i].encode ++
    if k = true then List.replicate 13 0 else s.proxy[i].encode) :=
  dif_pos i.isLt

end

/-! ### READ COUNTERS (R182, R178) -/

theorem readCountersPermission_reading {q : Port} {c : Command} {s s' : State} (takes : Takes 0x0E q c s s')
    (reads : c.args[1]? = some 0) : readCountersPermission q s = .open := by
  obtain ⟨-, -, b, found, rfl⟩ := takes_spec _ _ _ _ _ takes
  unfold readCountersPermission
  rw [found]
  exact if_pos reads

/-- READ COUNTERS is let in with a permit, or where it clears nothing. -/
theorem readCounters_admitted {q : Port} {c : Command} {s s' : State} (takes : Takes 0x0E q c s s')
    (permitted : Permitted q s ∨ c.args[1]? = some 0) : (readCountersPermission q s).refusal q s' = none := by
  by_cases reads : c.args[1]? = some 0
  · rw [readCountersPermission_reading takes reads]
    rfl
  · rw [readCountersPermission_clearing takes reads]
    exact refusal_fieldPermit_takes takes (permitted.resolve_right reads)

theorem exec_readCounters {q : Port} {c : Command} {s s' : State} {group clear first : Byte}
    (takes : Takes 0x0E q c s s') (permitted : Permitted q s ∨ clear = 0) (args : c.args = [group, clear, first]) :
    exec (.readCounters q) s =
      .next (replyTo 0x0E c (doReadCounters c s').result (doReadCounters c s').data (doReadCounters c s').state) := by
  have reads : clear = 0 → c.args[1]? = some 0 := by
    rintro rfl
    rw [args]
    rfl
  exact congrArg _ (serve_rightLength takes (readCounters_admitted takes (permitted.imp_right reads))
    (by rw [args]; rfl))

theorem byte_of_toNat (b : Byte) : byte b.toNat = b := BitVec.ofNat_toNat 8 b

/-- The answer of READ COUNTERS with its arguments in range. -/
theorem doReadCounters_done {c : Command} {s : State} {group clear first : Byte} {cs : List Counter}
    (args : c.args = [group, clear, first]) (found : s.counters.group group.toNat = some cs) (flag : clear.toNat ≤ 1)
    (inside : first.toNat < cs.length) :
    let k := min 14 (cs.length - first.toNat)
    doReadCounters c s = done (if clear.toNat = 1 then clearCounters group.toNat first.toNat k s else s)
      ([byte cs.length, first, byte k] ++ ((cs.drop first.toNat).take k).flatMap fun x => be16 x.toNat) := by
  have arg0 : c.arg 0 = group.toNat := arg_of_args args 0
  have arg1 : c.arg 1 = clear.toNat := arg_of_args args 1
  have arg2 : c.arg 2 = first.toNat := arg_of_args args 2
  intro k
  simp only [doReadCounters, arg0, arg1, arg2, found, flag, inside, and_self, if_true, byte_of_toNat, k]

theorem doReadCounters_bad {c : Command} {s : State} {group clear first : Byte} (args : c.args = [group, clear, first])
    (bad : s.counters.group group.toNat = none ∨ 1 < clear.toNat ∨
      ∃ cs : List Counter, s.counters.group group.toNat = some cs ∧ cs.length ≤ first.toNat) :
    doReadCounters c s = refuse s .badArgument := by
  have arg0 : c.arg 0 = group.toNat := arg_of_args args 0
  have arg1 : c.arg 1 = clear.toNat := arg_of_args args 1
  have arg2 : c.arg 2 = first.toNat := arg_of_args args 2
  simp only [doReadCounters, arg0, arg1, arg2]
  cases found : s.counters.group group.toNat with
  | none => rfl
  | some cs =>
    refine if_neg fun ⟨flag, inside⟩ => ?_
    rcases bad with none | beyond | ⟨cs', found', short⟩
    · cases found.symm.trans none
    · omega
    · cases found.symm.trans found'
      omega

/-! ### The counters by group, and their clearing (R182) -/

theorem counters_group_eq (c : Counters) (g : Nat) : c.group g = ([c.links.toList, c.routing.toList,
    c.exchanges.toList, c.proxy.toList, c.keys.toList, c.thermal.toList, c.liveness.toList] :
      List (List Counter))[g - 1]?.filter fun _ => 1 ≤ g := by
  match g with
  | 0 | 1 | 2 | 3 | 4 | 5 | 6 | 7 => rfl
  | n + 8 => rfl

theorem clearRange_toList {n : Nat} (v : Vector Counter n) (first k : Nat) : (clearRange v first k).toList =
    v.toList.mapIdx fun i x => if first ≤ i ∧ i < first + k then 0 else x := by
  apply List.ext_getElem
  · simp
  · intro i h h'
    simp [clearRange]

theorem group_clear_same {c : Counters} {g : Nat} {cs : List Counter} (found : c.group g = some cs) (first k : Nat) :
    (c.clear g first k).group g = some (cs.mapIdx fun i x => if first ≤ i ∧ i < first + k then 0 else x) := by
  match g with
  | 0 => cases found
  | 1 | 2 | 3 | 4 | 5 | 6 | 7 =>
    obtain rfl := Option.some.inj found
    exact congrArg some (clearRange_toList _ first k)
  | n + 8 => cases found

theorem group_clear_other {c : Counters} {g n : Nat} (other : g ≠ n) (first k : Nat) :
    (c.clear n first k).group g = c.group g := by
  unfold Counters.clear
  split <;> unfold Counters.group <;> split <;> simp_all

theorem clearCounters_counters (g first k : Nat) (s : State) :
    (clearCounters g first k s).counters = s.counters.clear g first k := by
  unfold clearCounters
  split <;> rfl

theorem clearCounters_frame (g first k : Nat) (s : State) :
    clearCounters g first k s = { s with
      counters := (clearCounters g first k s).counters, tables := (clearCounters g first k s).tables } := by
  unfold clearCounters
  split <;> rfl

theorem clearCounters_tables (g first k : Nat) (s : State) : (clearCounters g first k s).tables =
    { s.tables with hits := if g = 2 then Vector.replicate 32 0 else s.tables.hits } := by
  unfold clearCounters
  split <;> rfl

/-! ### Packed bytes (section 9.8) -/

theorem bitsOf_one : ∀ a : Bool, BitsOf (byte (bit a)) [a] := by decide

theorem bitsOf_two : ∀ a b : Bool, BitsOf (byte (bit a + 2 * bit b)) [a, b] := by decide

theorem bitsOf_four : ∀ a b c d : Bool,
    BitsOf (byte (bit a + 2 * bit b + 4 * bit c + 8 * bit d)) [a, b, c, d] := by decide

theorem packed_channels : ∀ x < 3, ∀ y < 3, ∀ z < 3,
    (byte (x + 4 * y + 16 * z)).extractLsb' 0 2 = BitVec.ofNat 2 x ∧
    (byte (x + 4 * y + 16 * z)).extractLsb' 2 2 = BitVec.ofNat 2 y ∧
    (byte (x + 4 * y + 16 * z)).extractLsb' 4 2 = BitVec.ofNat 2 z ∧
    (byte (x + 4 * y + 16 * z)).extractLsb' 6 2 = 0 := by decide

theorem packed_learn : ∀ x < 3, ∀ w : Bool,
    (byte (x + 4 * bit w)).extractLsb' 0 2 = BitVec.ofNat 2 x ∧ (byte (x + 4 * bit w)).getLsbD 2 = w ∧
    (byte (x + 4 * bit w)).extractLsb' 3 5 = 0 := by decide

theorem condition_encode : ∀ (selector : BitVec 4) (sense : Bool),
    (Condition.encode ⟨selector, sense⟩).setWidth 4 = selector ∧
    (Condition.encode ⟨selector, sense⟩).extractLsb' 4 3 = 0 ∧ (Condition.encode ⟨selector, sense⟩).msb = sense := by
  decide

theorem channel_code_lt (c : Channel) : c.code < 3 := by cases c <;> simp [Channel.code]

theorem learn_code_lt (l : LearnState) : l.code < 3 := by cases l <;> simp [LearnState.code]

theorem beInt16_eq (i : Int) : beInt16 i = be16 (i % 2 ^ 16).toNat := by
  rw [beInt16, BitVec.toNat_ofInt]
  rfl

theorem beInt32_eq (i : Int) : beInt32 i = be32 (i % 2 ^ 32).toNat := by
  rw [beInt32, BitVec.toNat_ofInt]
  rfl

/-! ### The Status Record (section 9.8) -/

theorem statusPart0_packed (s : State) (now : Instant) :
    let channelState : Channel → BitVec 2 := fun c => match c with
      | .unseeded => 0
      | .valid _ => 1
      | .faulted _ => 2
    let shown : Channel → List Byte := fun c => match c with
      | .unseeded | .faulted none => beInt16 (-32768)
      | .valid f | .faulted (some f) => beInt16 f
    ∃ b9 b10 b19 : Byte,
      statusPart0 now s =
        [byte s.live.state.code] ++ be32 (now.sec - s.live.enteredAt).toNat ++ [byte s.live.budget.length] ++
        be16 s.live.failedRestarts.toNat ++ [byte s.temp.readiness.code, b9, b10] ++
        shown s.temp.board ++ shown s.temp.glass ++ shown s.temp.air ++
        [byte s.heat.current.onB, byte s.heat.current.onG, b19] ∧
      BitsOf b9 [s.temp.hot, coldFallback s] ∧
      BitsOf b19 [s.heat.cutoffLine, s.heat.cutoffMarks, s.heat.board.blocked, s.heat.glass.blocked] ∧
      b10.extractLsb' 0 2 = channelState s.temp.board ∧ b10.extractLsb' 2 2 = channelState s.temp.glass ∧
      b10.extractLsb' 4 2 = channelState s.temp.air ∧ b10.extractLsb' 6 2 = 0 := by
  intro channelState shown
  have code (c : Channel) : channelState c = BitVec.ofNat 2 c.code := by cases c <;> rfl
  have value (c : Channel) : shown c = beInt16 c.reported := by
    cases c with
    | faulted held => cases held <;> rfl
    | _ => rfl
  obtain ⟨board, glass, air, rest⟩ := packed_channels _ (channel_code_lt s.temp.board) _
    (channel_code_lt s.temp.glass) _ (channel_code_lt s.temp.air)
  refine ⟨_, _, _, ?_, bitsOf_two _ _, bitsOf_four _ _ _ _, board.trans (code _).symm, glass.trans (code _).symm,
    air.trans (code _).symm, rest⟩
  rw [value, value, value]
  rfl

theorem statusPart1_packed (s : State) (now : Instant) :
    let learnState : BitVec 2 := match s.fan.learn with
      | .idle => 0
      | .learning _ => 1
      | .abandoned => 2
    let minutes : Nat := match s.mgmt.permit with
      | none => 0
      | some p => (p.length - (now.ms - p.start).toNat + 59999) / 60000
    let stuck : KeyPos → Bool := fun p => match s.keypad.keys[p] with
      | .stuck _ => true
      | _ => false
    ∃ b6 b7 b10 : Byte,
      statusPart1 now s =
        [byte (fanOutput s.fan)] ++ be16 s.fan.speed ++ [byte s.fan.state.code] ++
        beInt16 (s.fan.clogIndex.getD (-32768)) ++
        [b6, b7, byte ((List.finRange 48).countP stuck), s.flags, b10, byte minutes,
         s.mgmt.defaultsInUse.setWidth 8, byte ((s.store.writing.map StoreJob.id).getD 0),
         byte ((List.finRange 8).countP fun i : ExchangeId => s.exchanges[i].isWaiting),
         byte ((List.finRange 8).countP fun i : ExchangeId => s.exchanges[i].isLate),
         byte (freeCount s), byte s.keyUnit.queue.length, byte s.keyList.events.length] ∧
      b6.extractLsb' 0 2 = learnState ∧ b6.getLsbD 2 = s.fan.clogWarning ∧ b6.extractLsb' 3 5 = 0 ∧
      BitsOf b7 [s.keypad.flooded, s.keypad.lastSet == some .cold] ∧ BitsOf b10 [s.mgmt.frozen] := by
  intro learnState minutes stuck
  have learn : learnState = BitVec.ofNat 2 s.fan.learn.code := by
    simp only [learnState]
    cases s.fan.learn <;> rfl
  have remaining : minutes = permitMinutes now s := by
    simp only [minutes, permitMinutes]
    cases s.mgmt.permit <;> rfl
  have stuckKey : stuck = fun p => s.keypad.keys[p].isStuck := by
    funext p
    simp only [stuck]
    cases s.keypad.keys[p] <;> rfl
  have store : (s.store.writing.map StoreJob.id).getD 0 = storeCode s := by
    unfold storeCode
    cases s.store.writing <;> rfl
  obtain ⟨low, warning, rest⟩ := packed_learn _ (learn_code_lt s.fan.learn) s.fan.clogWarning
  refine ⟨_, _, _, ?_, low.trans learn.symm, warning, rest, bitsOf_two _ _, bitsOf_one _⟩
  rw [remaining, stuckKey, store]
  rfl

/-! ### The entries' layouts (section 9.8) -/

theorem routeEntry_encode (e : RouteEntry) : ∃ b0 : Byte,
    e.encode = [b0, byte e.cls.code, byte e.station.code, e.topicLow, e.topicHigh, e.condition.encode,
      byte e.action.code] ++ be16 e.pattern.toNat ∧ BitsOf b0 [e.valid, e.source == .host, e.feed, e.capture] :=
  ⟨_, rfl, bitsOf_four _ _ _ _⟩

theorem chordEntry_encode (e : ChordEntry) : ∃ b0 : Byte,
    e.encode = [b0, byte e.first, byte e.second, (e.third.map fun p : KeyPos => byte p).getD 255] ++
      be16 e.holdTime ++ [e.condition.encode, byte e.action.code] ++ be16 e.pattern.toNat ∧
    BitsOf b0 [e.valid] := by
  refine ⟨_, ?_, bitsOf_one _⟩
  unfold ChordEntry.encode
  cases e.third <;> rfl

theorem proxyHalf_encode (h : ProxyHalf) :
    h.encode = [if h.filled = true then 1 else 0, byte h.payload.length] ++ be32 h.stamp.toNat := by
  unfold ProxyHalf.encode
  cases h.filled <;> rfl

theorem proxyRuntime_encode (r : ProxyRuntime) :
    r.encode = (if r.active = .half0 then 0 else 1) :: (r.half0.encode ++ r.half1.encode) := by
  unfold ProxyRuntime.encode
  cases r.active <;> rfl

theorem logRecord_encode (r : LogRecord) :
    r.encode = be16 r.sequence.toNat ++ [byte r.cause.code, byte r.action.code] ++ be32 r.time.toNat ++
      be24 r.uptime ++ beInt16 r.boardTemp ++ [r.lateReplies, if r.counted = true then 1 else 0] := by
  unfold LogRecord.encode
  cases r.counted <;> rfl

/-- A payload of the wrong length, for every row of a fixed one (R177). -/
theorem wrongLength_refused {s s' : State} {q : Port} {c : Command} (permitted : Permitted q s)
    (frozen : s.mgmt.frozen = false) :
    ∀ p ∈ [(0x01, 1, Instr.status q), (0x02, 3, .readEntry q), (0x04, 2, .commit q), (0x05, 1, .discard q),
        (0x07, 2, .setFlags q), (0x09, 1, .hostRestart q), (0x0B, 0, .hostRelease q), (0x0C, 1, .readLog q),
        (0x0D, 0, .clearLog q), (0x0E, 3, .readCounters q), (0x0F, 0, .learnAirflow q)],
      Takes p.1 q c s s' → c.args.length ≠ p.2.1 → exec p.2.2 s = .next (replyTo p.1 c .badArgument [] s') := by
  intro p mem takes length
  have always : Permission.open.refusal q s' = none := rfl
  have notFrozen : Permission.notFrozen.refusal q s' = none := refusal_notFrozen_takes takes permitted frozen
  have fieldPermit : Permission.fieldPermit.refusal q s' = none := refusal_fieldPermit_takes takes permitted
  simp only [List.mem_cons, List.not_mem_nil, or_false] at mem
  rcases mem with rfl | rfl | rfl | rfl | rfl | rfl | rfl | rfl | rfl | rfl | rfl
  · exact congrArg _ (serve_wrongLength takes always length)
  · exact congrArg _ (serve_wrongLength takes always length)
  · exact congrArg _ (serve_wrongLength takes notFrozen length)
  · exact congrArg _ (serve_wrongLength takes notFrozen length)
  · exact congrArg _ (serve_wrongLength takes fieldPermit length)
  · exact congrArg _ (serve_wrongLength takes fieldPermit length)
  · exact congrArg _ (serve_wrongLength takes fieldPermit length)
  · exact congrArg _ (serve_wrongLength takes always length)
  · exact congrArg _ (serve_wrongLength takes notFrozen length)
  · exact congrArg _ (serve_wrongLength takes (readCounters_admitted takes (.inl permitted)) length)
  · exact congrArg _ (serve_wrongLength takes notFrozen length)

/-- The same for the rows that only the Host Link is let in to (R178). -/
theorem wrongLength_refused_host {s s' : State} {c : Command} (frozen : s.mgmt.frozen = false) :
    ∀ p ∈ [(0x08, 0, Instr.feed .host), (0x0A, 2, .hostPowerOff .host), (0x10, 0, .freeze .host),
        (0x11, 0, .supervisorReset .host)],
      Takes p.1 .host c s s' → c.args.length ≠ p.2.1 →
      exec p.2.2 s = .next (replyTo p.1 c .badArgument [] s') := by
  intro p mem takes length
  simp only [List.mem_cons, List.not_mem_nil, or_false] at mem
  rcases mem with rfl | rfl | rfl | rfl
  · exact congrArg _ (serve_wrongLength takes rfl length)
  · exact congrArg _ (serve_wrongLength takes rfl length)
  · refine congrArg _ (serve_wrongLength takes ?_ length)
    simp [Permission.refusal, (takes_frame takes).1, frozen]
  · have port := (takes_spec _ _ _ _ _ takes).1
    have some_args : c.args ≠ [] := fun empty => length (by rw [empty]; rfl)
    rw [exec_supervisorReset takes]
    simp [doSupervisorReset, port, some_args]

/-- READ COUNTERS carried out: the counters from `first` on, at most 14, and what `clear` 1 sets to 0 (R182). -/
theorem readCounters_done {s s' : State} {q : Port} {c : Command} {group clear first : Byte} {cs : List Counter}
    (takes : Takes 0x0E q c s s') (permitted : Permitted q s ∨ clear = 0) (args : c.args = [group, clear, first])
    (found : s.counters.group group.toNat = some cs) (flag : clear.toNat ≤ 1) (inside : first.toNat < cs.length) :
    let k := min 14 (cs.length - first.toNat)
    exec (.readCounters q) s = .next (replyTo 0x0E c .done
      ([byte cs.length, first, byte k] ++ ((cs.drop first.toNat).take k).flatMap fun x => be16 x.toNat)
      (if clear.toNat = 1 then clearCounters group.toNat first.toNat k s' else s')) := by
  intro k
  have counters : s'.counters = s.counters := by
    obtain ⟨-, rfl⟩ := takes_erases takes
    rfl
  rw [exec_readCounters takes permitted args, doReadCounters_done args (counters ▸ found) flag inside]
  rfl

/-- Settles O47: each reading command's answer by its arguments, and each layout byte by byte. -/
theorem readingCommandsRule : Obligations.ReadingCommandsRule := by
  refine ⟨fun s s' q c => ?_, fun s now => ?_, fun s s' q c k takes => ?_,
    fun s s' q c group clear first cs takes permitted args found flag inside => ?_, fun s => counters_group_eq _,
    fun s s' q c permitted frozen => ?_, fun s s' q c => ?_, ?_, statusPart0_packed, statusPart1_packed, ?_⟩
  · refine ⟨status_part0, status_part1, fun i takes args => ?_, fun i takes args => ?_,
      fun i r inside found low takes args => ?_, fun first takes args => ?_⟩
    all_goals obtain ⟨-, -, -, -, tables, -, -, log, -, counters, -⟩ := takes_frame takes
    · refine readEntry_done (k := false) takes args ?_
      rw [byte_toNat _ (Nat.lt_trans i.isLt (by decide)), ← tables]
      exact entryBytes_settings false s' i
    · refine readEntry_done (k := false) takes args ?_
      rw [byte_toNat _ (Nat.lt_trans i.isLt (by decide)), ← tables]
      exact entryBytes_route false s' i
    · rw [exec_readLog takes args, byte_toNat _ low, found]
    · have index : (byte first).toNat = first := byte_toNat _ (Nat.lt_trans first.isLt (by decide))
      have size : s.counters.links.toList.length = 25 := Vector.length_toList
      have answer := readCounters_done (cs := s.counters.links.toList) takes (.inr rfl) args rfl (by decide)
        (by rw [index, size]; exact first.isLt)
      rw [index, size] at answer
      exact answer
  · exact ⟨rfl, rfl, rfl, rfl, rfl, rfl, rfl, rfl, rfl, rfl, rfl⟩
  · obtain ⟨-, -, -, -, tables, proxy, -⟩ := takes_frame takes
    rw [← tables, ← proxy]
    have below {n : Nat} (i : Fin n) (bound : n < 256) : (byte i).toNat = i :=
      byte_toNat _ (Nat.lt_trans i.isLt bound)
    refine ⟨fun i args => ?_, fun i args => ?_, fun i args => ?_, fun i args => ?_, fun i args => ?_,
      fun i args => ?_, fun i args => ?_⟩ <;> refine readEntry_done takes args ?_ <;> rw [below i (by decide)]
    · exact entryBytes_route k s' i
    · exact entryBytes_keyMap k s' i
    · exact entryBytes_chord k s' i
    · exact entryBytes_curveA k s' i
    · exact entryBytes_curveB k s' i
    · exact entryBytes_settings k s' i
    · exact entryBytes_proxy k s' i
  · intro k
    refine ⟨_, readCounters_done takes permitted args found flag inside, fun reads => ?_, fun clears => ?_⟩
    · exact if_neg (by rw [reads]; decide)
    · have isOne : clear.toNat = 1 := by rw [clears]; rfl
      obtain ⟨-, -, -, -, tables, -, -, -, -, counters, -⟩ := takes_frame takes
      rw [if_pos isOne]
      refine ⟨fun g => ?_, ?_, clearCounters_frame ..⟩
      · rw [clearCounters_counters, counters]
        split
        · rename_i same
          rw [same, group_clear_same found]
        · rename_i other
          exact group_clear_other other ..
      · rw [clearCounters_tables, tables]
        have isTwo : group.toNat = 2 ↔ group = 2 := BitVec.toNat_inj (y := 2)
        simp only [isTwo]
  · refine ⟨wrongLength_refused permitted frozen, ?_⟩
    rintro rfl
    exact wrongLength_refused_host frozen
  · refine ⟨fun part takes args beyond => status_badPart takes args beyond,
      fun table index copy takes args bad => readEntry_bad takes args bad, fun i takes args beyond => ?_,
      fun group clear first takes permitted args bad => ?_⟩
    · rw [exec_readLog takes args, List.getElem?_eq_none (by simpa using beyond)]
    · have counters : s'.counters = s.counters := by
        obtain ⟨-, rfl⟩ := takes_erases takes
        rfl
      rw [exec_readCounters takes permitted args, doReadCounters_bad args (counters ▸ bad)]
      rfl
  · refine ⟨fun n => ⟨rfl, rfl, rfl⟩, fun i => ⟨beInt16_eq i, beInt32_eq i⟩, by decide, by decide, by decide,
      fun phase => rfl, by decide, by decide, by decide, by decide, by decide, by decide⟩
  · refine ⟨fun ⟨selector, sense⟩ => condition_encode selector sense, routeEntry_encode,
      fun e => ⟨_, rfl, bitsOf_two _ _⟩, chordEntry_encode, fun e => ⟨_, rfl, bitsOf_one _⟩, fun r => ?_,
      logRecord_encode⟩
    rw [proxyRuntime_encode, proxyHalf_encode, proxyHalf_encode]

end Sys2Proof.Machine
end

section
/-! SUPPORT. The heater lines, the heat boundary and the fan (O36, O37, O38). -/

namespace Sys2Proof.Machine

/-- Settles O37. -/
theorem heaterLinesRule : Obligations.HeaterLinesRule := by
  intro s
  refine ⟨fun running => ?_, fun inactive => ?_, fun active => ?_, rfl, rfl⟩
  · exact congrArg _ (if_pos running)
  · exact congrArg _ (if_neg (by simp [inactive]))
  · exact congrArg _ (if_pos active)

/-! ### The fan's moves (R133 to R135, R138) -/

/-- A learn that runs is abandoned and counted (R138). -/
theorem abandonLearn_eq (s : State) : abandonLearn s = if s.fan.learn.isLearning = true then
    bump Ctr.thermalLearnsAbandoned { s with fan := { s.fan with learn := .abandoned } } else s := by
  unfold abandonLearn
  cases s.fan.learn <;> rfl

/-- A fan in Running or Kicking goes to Off where nothing is commanded (R133). -/
theorem followDuty_turning {f : FanDrive} (on : f.state ≠ .off) (working : f.state ≠ .failed) : f.followDuty =
    if f.commanded = 0 then { f with state := .off, stallRun := 0, goodRun := 0, kicks := 0 } else f := by
  unfold FanDrive.followDuty
  split
  · exact absurd ‹_› on
  · exact absurd ‹_› working
  · rfl

/-- The fan's move with its commanded duty, by state (R133). -/
theorem followDuty_eq (f : FanDrive) : f.followDuty =
    if f.state = .off ∧ 0 < f.commanded then { f with state := .running, stallRun := 0 }
    else if f.state ≠ .off ∧ f.state ≠ .failed ∧ f.commanded = 0 then
      { f with state := .off, stallRun := 0, goodRun := 0, kicks := 0 }
    else f := by
  by_cases off : f.state = .off
  · simp only [FanDrive.followDuty, off, true_and, ne_eq, not_true, false_and, if_false]
  · by_cases failed : f.state = .failed
    · simp [FanDrive.followDuty, failed]
    · simp only [followDuty_turning off failed, off, failed, ne_eq, not_false_eq_true, true_and, false_and, if_false]

theorem recoverFan_eq (s : State) : recoverFan s = { s with fan := { s.fan with
    state := if s.fan.commanded = 0 then .off else .running, stallRun := 0, goodRun := 0, kicks := 0 } } := by
  unfold recoverFan
  rw [followDuty_turning (by simp) (by simp)]
  by_cases none : s.fan.commanded = 0 <;> simp [none]

theorem judged_good (f : FanDrive) : f.judged true = { f with goodRun := f.goodRun + 1, stallRun := 0 } := rfl

theorem judged_stalled (f : FanDrive) : f.judged false = { f with stallRun := f.stallRun + 1, goodRun := 0 } := rfl

section
variable {s : State} {phase : KickPhase}

theorem judgeRunning_kicks (on : s.fan.commanded ≠ 0) (fifth : 4 ≤ s.fan.stallRun) :
    judgeRunning false s = startKick 1 (abandonLearn s) := by
  have run : 5 ≤ s.fan.stallRun + 1 := Nat.succ_le_succ fifth
  simp only [judgeRunning, Bool.false_eq_true, if_false, on, run, if_true, abandonLearn_eq, startKick]
  split <;> rfl

theorem judgeRunning_stalled (on : s.fan.commanded ≠ 0) (fewer : s.fan.stallRun < 4) :
    judgeRunning false s = { s with fan := { s.fan with stallRun := s.fan.stallRun + 1 } } := by
  have run : ¬ 5 ≤ s.fan.stallRun + 1 := by omega
  simp only [judgeRunning, Bool.false_eq_true, if_false, on, run]

theorem judgeKicking_recovers (fifth : 4 ≤ s.fan.goodRun) : judgeKicking phase true s = recoverFan s := by
  have run : 5 ≤ s.fan.goodRun + 1 := Nat.succ_le_succ fifth
  simp only [judgeKicking, judged_good, run, if_true, recoverFan_eq]

theorem judgeKicking_good (fewer : s.fan.goodRun < 4) : judgeKicking phase true s = { s with fan := { s.fan with
    state := .kicking phase.next, goodRun := s.fan.goodRun + 1, stallRun := 0 } } := by
  have run : ¬ 5 ≤ s.fan.goodRun + 1 := by omega
  simp [judgeKicking, judged_good, run]

theorem judgeKicking_stalled (fewer : s.fan.stallRun < 4 ∨ phase.next ≠ .watch) :
    judgeKicking phase false s = { s with fan := { s.fan with
      state := .kicking phase.next, stallRun := s.fan.stallRun + 1, goodRun := 0 } } := by
  have run : ¬ (4 ≤ s.fan.stallRun ∧ phase.next = .watch) := fun ⟨fifth, watch⟩ =>
    fewer.elim (Nat.not_lt.2 fifth) (· watch)
  simp [judgeKicking, judged_stalled, run]

theorem judgeKicking_kicks (fifth : 4 ≤ s.fan.stallRun) (fewer : s.fan.kicks < 3) : judgeKicking .watch false s =
    startKick (s.fan.kicks + 1) { s with fan := { s.fan with goodRun := 0 } } := by
  simp [judgeKicking, judged_stalled, fifth, fewer, KickPhase.next, startKick]

theorem judgeKicking_fails (fifth : 4 ≤ s.fan.stallRun) (third : 3 ≤ s.fan.kicks) : judgeKicking .watch false s =
    failFan { s with fan := { s.fan with
      state := .kicking .watch, stallRun := s.fan.stallRun + 1, goodRun := 0 } } := by
  simp [judgeKicking, judged_stalled, fifth, Nat.not_lt.2 third, KickPhase.next]

theorem judgeFailed_recovers (fifth : 4 ≤ s.fan.goodRun) :
    judgeFailed true s = bump Ctr.thermalFanRecoveries (recoverFan s) := by
  have run : 5 ≤ s.fan.goodRun + 1 := Nat.succ_le_succ fifth
  simp only [judgeFailed, judged_good, run, if_true, recoverFan_eq]

theorem judgeFailed_good (fewer : s.fan.goodRun < 4) : judgeFailed true s =
    { s with fan := { s.fan with goodRun := s.fan.goodRun + 1, stallRun := 0 } } := by
  have run : ¬ 5 ≤ s.fan.goodRun + 1 := by omega
  simp only [judgeFailed, judged_good, run, if_false]

theorem judgeFailed_stalled : judgeFailed false s =
    { s with fan := { s.fan with stallRun := s.fan.stallRun + 1, goodRun := 0 } } := rfl

/-- A fan that fails: its failure counted, a learn abandoned, and the FAN notice of event 1 (R135, R138). -/
theorem failFan_eq (s : State) : failFan s =
    composeNotice 0xC4 ([1, 3] ++ be16 s.fan.speed ++ beInt16 (s.fan.clogIndex.getD (-32768)))
      (abandonLearn (bump Ctr.thermalFanFailures { s with fan := { s.fan with state := .failed } })) := by
  simp only [failFan, fanNotice, abandonLearn_eq]
  split <;> rfl

end

theorem failFan_failed (s : State) : (failFan s).fan.state = .failed ∧ fanOutput (failFan s).fan = 100 := by
  have state : (failFan s).fan.state = .failed := by
    rw [failFan_eq, composeNotice_fan, abandonLearn_eq]
    split <;> rfl
  exact ⟨state, by rw [fanOutput, state]⟩

/-- A learn that runs is abandoned, whatever else the fan does. -/
theorem abandonLearn_learning {s : State} {l : Timer} (learning : s.fan.learn = .learning l) :
    (abandonLearn s).fan.learn = .abandoned := by
  rw [abandonLearn_eq, learning]
  rfl

/-! ### The duty (R130, R131) -/

theorem commandedDuty_eq (s : State) :
    let curve := curveDuty (settings s) (workingBoard s) s.fan.runningMark
    let cold : Nat := match workingBoard s with
      | some x => if (settings s).fanStart ≤ x then curve.1 else 0
      | none => 0
    commandedDuty s =
      (if s.fan.learn.isLearning = true then (100, curve.2)
      else if s.live.state = .coldHold then (cold, curve.2 && decide (cold ≠ 0))
      else curve) := by
  intro curve cold
  have duty : (if boardAtFanStart s = true then curve.1 else 0) = cold := by
    rcases Option.eq_none_or_eq_some (workingBoard s) with absent | ⟨x, present⟩
    · simp only [cold, boardAtFanStart, absent, Bool.false_eq_true, if_false]
    · simp only [cold, boardAtFanStart, present, decide_eq_true_eq]
  have nonzero : (cold != 0) = decide (cold ≠ 0) := by by_cases h : cold = 0 <;> simp [h]
  rw [← nonzero, ← duty]
  simp only [commandedDuty, beq_iff_eq]
  rfl

theorem curveDuty_spec (t : SettingsTable) (x : Int) (mark : Bool) :
    curveDuty t none mark = (100, true) ∧
    (t.fanFull ≤ x → curveDuty t (some x) mark = (100, true)) ∧
    (t.fanStart ≤ x → x < t.fanFull → curveDuty t (some x) mark =
      ((t.fanMin + (100 - t.fanMin) * (x - t.fanStart) / (t.fanFull - t.fanStart)).toNat, true)) ∧
    (x < t.fanStart → x < t.fanFull → t.fanStart - 20 ≤ x →
      curveDuty t (some x) mark = if mark = true then (t.fanMin.toNat, true) else (0, false)) ∧
    (x < t.fanStart - 20 → x < t.fanFull → curveDuty t (some x) mark = (0, false)) := by
  refine ⟨rfl, fun full => if_pos full, fun start below => ?_, fun below notFull near => ?_, fun far notFull => ?_⟩
  · exact (if_neg (Int.not_le.2 below)).trans (if_pos start)
  · refine (if_neg (Int.not_le.2 notFull)).trans ((if_neg (Int.not_le.2 below)).trans ?_)
    simp [near]
  · have below : ¬ t.fanStart ≤ x := by omega
    refine (if_neg (Int.not_le.2 notFull)).trans ((if_neg below).trans ?_)
    simp [Int.not_le.2 far]

/-! ### The clog index (R136) -/

theorem boardMinusAir_eq_none {s : State} (h : s.temp.board.isValid = false ∨ s.temp.air.isValid = false) :
    boardMinusAir s = none := by
  have absent : (boardMinusAir s).isSome = false := by
    rw [boardMinusAir_isSome]
    rcases h with h | h <;> simp [h]
  simpa using absent

theorem refreshClog_taken {s : State} {b a : Int} (learned : (settings s).baselineLearned ≠ 0)
    (board : s.temp.board = .valid b) (air : s.temp.air = .valid a) :
    let index := max (-1000) (min 1000 (b - a - (settings s).baselineDelta))
    refreshClog s =
      (if index ≤ (settings s).clogLimit then
        { s with fan := { s.fan with clogIndex := some index, clogWarning := false } }
      else if s.fan.clogWarning = true then { s with fan := { s.fan with clogIndex := some index } }
      else composeNotice 0xC4 ([2, byte s.fan.state.code] ++ be16 s.fan.speed ++ beInt16 index)
        (bump Ctr.thermalClogWarnings
          { s with fan := { s.fan with clogIndex := some index, clogWarning := true } })) := by
  intro index
  have difference : boardMinusAir s = some (b - a) := by rw [boardMinusAir, board, air]
  rw [refreshClog, if_neg learned, difference]
  show clogRefreshed index s = _
  by_cases small : index ≤ (settings s).clogLimit
  · rw [clogRefreshed, if_neg (Int.not_lt.2 small), if_pos small]
  · rw [clogRefreshed, if_pos (Int.not_le.1 small), if_neg small]
    rfl

/-! ### The boundary (R119, R132, R133) -/

/-- What a judgement and a refresh leave of the fan: the window's speed and the pulses of the next. -/
def SameWindow (f g : FanDrive) : Prop := g.speed = f.speed ∧ g.pulses = f.pulses

theorem followDuty_window (f : FanDrive) : SameWindow f f.followDuty := by
  rw [followDuty_eq]
  split
  · exact ⟨rfl, rfl⟩
  · split <;> exact ⟨rfl, rfl⟩

theorem abandonLearn_window (s : State) : SameWindow s.fan (abandonLearn s).fan := by
  rw [abandonLearn_eq]
  split <;> exact ⟨rfl, rfl⟩

theorem failFan_window (s : State) : SameWindow s.fan (failFan s).fan := by
  rw [failFan_eq, composeNotice_fan]
  exact abandonLearn_window (bump Ctr.thermalFanFailures { s with fan := { s.fan with state := .failed } })

theorem judgeRunning_window (good : Bool) (s : State) : SameWindow s.fan (judgeRunning good s).fan := by
  cases good with
  | true => exact ⟨rfl, rfl⟩
  | false =>
    by_cases none : s.fan.commanded = 0
    · rw [judgeRunning, if_neg (by simp), if_pos none]
      exact ⟨rfl, rfl⟩
    · by_cases fifth : 4 ≤ s.fan.stallRun
      · rw [judgeRunning_kicks none fifth]
        exact abandonLearn_window s
      · rw [judgeRunning_stalled none (Nat.not_le.1 fifth)]
        exact ⟨rfl, rfl⟩

theorem judgeKicking_window (phase : KickPhase) (good : Bool) (s : State) :
    SameWindow s.fan (judgeKicking phase good s).fan := by
  have judged : SameWindow s.fan { s.fan.judged good with state := .kicking phase.next } := by
    cases good <;> exact ⟨rfl, rfl⟩
  simp only [judgeKicking]
  split
  · rw [recoverFan_eq]
    exact judged
  · split
    · split
      · exact judged
      · have failed := failFan_window { s with fan := { s.fan.judged good with state := .kicking phase.next } }
        exact ⟨failed.1.trans judged.1, failed.2.trans judged.2⟩
    · exact judged

theorem judgeFailed_window (good : Bool) (s : State) : SameWindow s.fan (judgeFailed good s).fan := by
  have judged : SameWindow s.fan (s.fan.judged good) := by cases good <;> exact ⟨rfl, rfl⟩
  simp only [judgeFailed]
  split
  · rw [recoverFan_eq]
    exact judged
  · exact judged

/-- The judgement by the fan's state, for a speed that is good or not (R133). -/
theorem judgeFan_eq {s : State} {good : Bool} (h : speedGood s = good) {wasOff : Prop} [Decidable wasOff] :
    judgeFan (decide wasOff) s = match s.fan.state with
      | .off => s
      | .running => if wasOff then s else judgeRunning good s
      | .kicking phase => judgeKicking phase good s
      | .failed => judgeFailed good s := by
  subst h
  unfold judgeFan
  cases s.fan.state <;> simp

theorem judgeFan_window (wasOff : Bool) (s : State) : SameWindow s.fan (judgeFan wasOff s).fan := by
  unfold judgeFan
  split
  · exact ⟨rfl, rfl⟩
  · split
    · exact ⟨rfl, rfl⟩
    · exact judgeRunning_window ..
  · exact judgeKicking_window ..
  · exact judgeFailed_window ..

theorem refreshClog_window (s : State) : SameWindow s.fan (refreshClog s).fan := by
  unfold refreshClog clogRefreshed
  split
  · exact ⟨rfl, rfl⟩
  · split
    · split
      · split <;> simp [SameWindow]
      · exact ⟨rfl, rfl⟩
    · exact ⟨rfl, rfl⟩

theorem refreshDue_iff (clock : Nat) : refreshDue clock = true ↔ 120 ≤ clock ∧ (clock - 120) % 10 = 0 := by
  simp [refreshDue]

theorem moveAirflowClock_eq (s : State) :
    let full := s.fan.state = .running ∧ s.fan.commanded = 100
    let clock := if full then s.fan.airflowClock + 1 else 0
    let w := { s with fan := { s.fan with airflowClock := clock } }
    moveAirflowClock s = if full ∧ 120 ≤ clock ∧ (clock - 120) % 10 = 0 then refreshClog w else w := by
  intro full clock w
  simp only [moveAirflowClock, Bool.and_eq_true, beq_iff_eq, refreshDue_iff]
  rfl

theorem ite_window {p : Prop} [Decidable p] {f : FanDrive} {s t : State} (hs : SameWindow f s.fan)
    (ht : SameWindow f t.fan) : SameWindow f (if p then s else t).fan := by
  split <;> assumption

theorem moveAirflowClock_window (s : State) : SameWindow s.fan (moveAirflowClock s).fan := by
  rw [moveAirflowClock_eq]
  exact ite_window (refreshClog_window _) ⟨rfl, rfl⟩

theorem fanBoundary_window (s : State) :
    (fanBoundary s).fan.speed = min 65535 (s.fan.pulses * 30) ∧ (fanBoundary s).fan.pulses = 0 := by
  obtain ⟨clockSpeed, clockPulses⟩ := moveAirflowClock_window
    (judgeFan (s.fan.state == .off) (recomputeDuty (closeSpeedWindow s)))
  obtain ⟨judgeSpeed, judgePulses⟩ := judgeFan_window (s.fan.state == .off) (recomputeDuty (closeSpeedWindow s))
  obtain ⟨dutySpeed, dutyPulses⟩ : SameWindow (closeSpeedWindow s).fan (recomputeDuty (closeSpeedWindow s)).fan :=
    followDuty_window _
  exact ⟨clockSpeed.trans (judgeSpeed.trans dutySpeed), clockPulses.trans (judgePulses.trans dutyPulses)⟩

/-- The fan of a boundary when its duty is recomputed: the window closed, the move between Off and Running made. -/
theorem recomputeDuty_boundary (s : State) :
    let duty := commandedDuty s
    let f : FanDrive := { s.fan with
      speed := min 65535 (s.fan.pulses * 30), pulses := 0, commanded := duty.1, runningMark := duty.2 }
    recomputeDuty (closeSpeedWindow (heaterBoundary s)) =
      { s with heat := (heaterBoundary s).heat, fan := f.followDuty } := by
  intro duty f
  have blank : heaterBoundary s = { s with heat := (heaterBoundary s).heat } := by
    simp only [heaterBoundary, unblock]
    split <;> split <;> rfl
  conv_lhs => rw [blank]
  rfl

theorem boundaryDue_iff (s : State) : boundaryDue s = true ↔ 1000 ≤ elapsed s.heat.periodStart s.clock.ms := by
  simp [boundaryDue]

theorem exec_heatBoundary {s : State} (due : 1000 ≤ elapsed s.heat.periodStart s.clock.ms) :
    exec .heatBoundary s = .next (fanBoundary (heaterBoundary s)) :=
  congrArg _ (if_pos ((boundaryDue_iff s).2 due))

/-- Settles O36. -/
theorem heatBoundaryRule : Obligations.HeatBoundaryRule := by
  refine ⟨fun s due => ⟨_, exec_heatBoundary due, ?_, ?_⟩, fun s due => ?_⟩
  · rw [fanBoundary_heat, heaterBoundary_heat]
    exact ⟨rfl, rfl, rfl, rfl, rfl, rfl, rfl, rfl⟩
  · obtain ⟨speed, pulses⟩ := fanBoundary_window (heaterBoundary s)
    rw [heaterBoundary_fan] at speed
    exact ⟨speed, pulses, by simp, by simp, by simp, by simp, by simp⟩
  · intro duty speed f moved good
    have start : recomputeDuty (closeSpeedWindow (heaterBoundary s)) =
        { s with heat := (heaterBoundary s).heat, fan := moved } :=
      (recomputeDuty_boundary s).trans (by rw [followDuty_eq])
    have wasOff : ((heaterBoundary s).fan.state == .off) = decide (s.fan.state = .off) := by
      rw [heaterBoundary_fan]
      by_cases off : s.fan.state = .off <;> simp [off]
    refine ⟨{ s with heat := (heaterBoundary s).heat, fan := moved }, _, _, exec_heatBoundary due, ?_, ?_,
      moveAirflowClock_eq _⟩
    · rw [fanBoundary_heat]
    · rw [start, wasOff]
      have sameSpeed : moved.speed = speed := by
        have window := followDuty_window f
        rw [followDuty_eq] at window
        exact window.1
      have judged : speedGood { s with heat := (heaterBoundary s).heat, fan := moved } = good :=
        congrArg (fun n : Nat => decide ((settings s).stallRpm ≤ (n : Int))) sameSpeed
      exact judgeFan_eq judged

/-- Settles O38. -/
theorem fanRules : Obligations.FanRules := by
  refine ⟨fun s phase => ?_, fun s l b a learning due board air => ?_, curveDuty_spec, commandedDuty_eq,
    fun s => ⟨fun skipped => ?_, fun b a => refreshClog_taken⟩⟩
  · refine ⟨fun on fourth => ?_, rfl, fun on fourth => ?_, fun fourth fewer => ?_, fun fourth third => ?_,
      fun none => ?_, judgeRunning_stalled, fun fewer => ⟨judgeKicking_good fewer, judgeFailed_good fewer⟩,
      judgeKicking_stalled, judgeFailed_stalled, rfl, rfl, rfl, fun l learning => ⟨fun on fourth => ?_,
        fun fourth third => ?_⟩, fun on fourth => ?_, fun fourth fewer => judgeKicking_kicks fourth fewer,
      fun fourth third => ?_, fun fourth => ⟨?_, ?_⟩⟩
    · rw [judgeRunning_kicks on fourth.ge]
      exact ⟨rfl, rfl, rfl, rfl⟩
    · rw [judgeKicking_recovers fourth, judgeFailed_recovers fourth, recoverFan_eq, if_neg on]
      exact ⟨rfl, rfl, rfl, rfl⟩
    · rw [judgeKicking_kicks fourth fewer]
      exact ⟨rfl, rfl⟩
    · rw [judgeKicking_fails fourth third]
      exact failFan_failed _
    · exact (if_neg (by simp)).trans (if_pos none)
    · rw [judgeRunning_kicks on fourth.ge]
      exact abandonLearn_learning learning
    · rw [judgeKicking_fails fourth third, failFan_eq, composeNotice_fan]
      exact abandonLearn_learning learning
    · rw [judgeRunning_kicks on fourth, abandonLearn_eq]
      rfl
    · rw [judgeKicking_fails fourth third, failFan_eq, abandonLearn_eq]
    · rw [judgeKicking_recovers fourth, recoverFan_eq]
    · rw [judgeFailed_recovers fourth, recoverFan_eq]
  · have ran : learnDue s = true := by
      rw [learnDue, learning]
      exact decide_eq_true due
    have difference : boardMinusAir s = some (b - a) := by rw [boardMinusAir, board, air]
    show execLearnComplete s = _
    rw [execLearnComplete, if_pos ran, difference]
    rfl
  · rw [refreshClog]
    rcases skipped with unlearned | invalid
    · exact if_pos unlearned
    · rw [boardMinusAir_eq_none invalid]
      exact ite_self _

end Sys2Proof.Machine
end

section
/-! SUPPORT. Keys on their own reading, key delivery and chords (O39, O41, O42). -/

namespace Sys2Proof.Machine

/-! ### Rectangles (R148) -/

/-- A key completes a rectangle with another row and another column (R148). -/
theorem completesRectangle_iff (corner : KeyPos → Bool) (r c : Nat) (hp : r * 8 + c < 48) (hc : c < 8) :
    completesRectangle corner ⟨r * 8 + c, hp⟩ = true ↔
      ∃ (r' c' : Nat) (h1 : r * 8 + c' < 48) (h2 : r' * 8 + c < 48) (h3 : r' * 8 + c' < 48),
        c' < 8 ∧ r' ≠ r ∧ c' ≠ c ∧
        corner ⟨r * 8 + c', h1⟩ = true ∧ corner ⟨r' * 8 + c, h2⟩ = true ∧ corner ⟨r' * 8 + c', h3⟩ = true := by
  have row : keyRow ⟨r * 8 + c, hp⟩ = r := by simp only [keyRow]; omega
  have col : keyCol ⟨r * 8 + c, hp⟩ = c := by simp only [keyCol]; omega
  simp only [completesRectangle, row, col, List.any_eq_true, List.mem_range, Bool.and_eq_true, bne_iff_ne]
  constructor
  · rintro ⟨r', -, c', low, ⟨⟨⟨rows, cols⟩, same⟩, other⟩, across⟩
    obtain ⟨h1, same⟩ := (cornerAt_iff corner r c' low).1 same
    obtain ⟨h2, other⟩ := (cornerAt_iff corner r' c hc).1 other
    obtain ⟨h3, across⟩ := (cornerAt_iff corner r' c' low).1 across
    exact ⟨r', c', h1, h2, h3, low, rows, cols, same, other, across⟩
  · rintro ⟨r', c', h1, h2, h3, low, rows, cols, same, other, across⟩
    exact ⟨r', by omega, c', low, ⟨⟨⟨rows, cols⟩, (cornerAt_iff corner r c' low).2 ⟨h1, same⟩⟩,
      (cornerAt_iff corner r' c hc).2 ⟨h2, other⟩⟩, (cornerAt_iff corner r' c' low).2 ⟨h3, across⟩⟩

/-! ### One key on its reading (R146 to R152) -/

section
variable {v : SampleView} {p : KeyPos} {since : Word} {n : Nat}

theorem readPressed_pressing (h : v.keys[p] = .pressing n) : readPressed v p = pressed v p (n + 1) := by
  rw [readPressed, h]

theorem readPressed_up (h : v.keys[p] = .up) (free : completesRectangle (downBefore v.keys) p = false) :
    readPressed v p = pressed v p 1 := by
  rw [readPressed, h]
  exact if_neg (by simp [free])

theorem readPressed_up_ghost (h : v.keys[p] = .up) (ghost : completesRectangle (downBefore v.keys) p = true) :
    readPressed v p = (.ambiguous, .ghost) := by
  rw [readPressed, h]
  exact if_pos ghost

theorem pressed_free (free : completesRectangle (pressCorner v.keys v.raw v.press) p = false) :
    pressed v p n = if v.press ≤ n then (.down v.now, .press) else (.pressing n, .nothing) := by
  simp [pressed, free]

theorem pressed_below (h : n < v.press) : pressed v p n = (.pressing n, .nothing) :=
  if_neg (Nat.not_le.2 h)

theorem pressed_ghost (h : v.press ≤ n) (ghost : completesRectangle (pressCorner v.keys v.raw v.press) p = true) :
    pressed v p n = (.ambiguous, .ghost) :=
  (if_pos h).trans (if_pos ghost)

theorem readPressed_held (h : v.keys[p] = .down since ∨ ∃ n : Nat, v.keys[p] = .releasing n since) :
    readPressed v p = if v.stuckLimit ≠ 0 ∧ v.stuckLimit < (v.now - since).toNat then (.stuck 0, .synthesizedRelease)
      else (.down since, .nothing) := by
  have test : readPressed v p = stuckTest v since := by
    rcases h with h | ⟨n, h⟩ <;> rw [readPressed, h]
  rw [test, stuckTest]
  exact if_congr (by rw [Bool.and_eq_true, bne_iff_ne, decide_eq_true_iff]; rfl) rfl rfl

theorem downBefore_iff (keys : Vector KeyState 48) (p : KeyPos) :
    downBefore keys p = true ↔ ∃ since : Word, keys[p] = .down since := by
  unfold downBefore
  cases keys[p] <;> simp [KeyState.isDown]

/-- The keys that meet the press threshold: those Up that complete no rectangle, and those Pressing (R149). -/
theorem meetsPress_iff (keys : Vector KeyState 48) (raw : BitVec 48) (threshold : Nat) (p : KeyPos) :
    meetsPress keys raw threshold p = true ↔ raw.getLsbD p = true ∧
      ((keys[p] = .up ∧ completesRectangle (downBefore keys) p = false ∧ threshold ≤ 1) ∨
        ∃ n : Nat, keys[p] = .pressing n ∧ threshold ≤ n + 1) := by
  rw [meetsPress, Bool.and_eq_true]
  refine and_congr_right fun _ => ?_
  unfold pressingCount
  cases keys[p] with
  | up => cases completesRectangle (downBefore keys) p <;> simp
  | _ => simp

end

/-- Settles O39. -/
theorem keyReadingRule : Obligations.KeyReadingRule := by
  refine ⟨fun corner r c hp hc => completesRectangle_iff corner r c hp hc, fun v p => ⟨fun free free' => ⟨fun up => ?_,
    fun n pressing => ?_⟩, fun since held => readPressed_held held, fun ambiguous => ⟨?_, ?_⟩, fun up => ?_,
    fun n pressing => ?_, fun since down => ?_, fun n since releasing => ?_, fun n stuck => ⟨?_, ?_⟩⟩,
    fun v p => ⟨readPressed_up_ghost, fun n reads => ?_, downBefore_iff _ _, ?_⟩⟩
  · rw [readPressed_up up free, pressed_free free']
  · rw [readPressed_pressing pressing, pressed_free free']
  · rw [readPressed, ambiguous]
  · rw [readReleased, ambiguous]
  · rw [readReleased, up]
  · rw [readReleased, pressing]
  · rw [readReleased, down]
    rfl
  · rw [readReleased, releasing]
    rfl
  · rw [readPressed, stuck]
  · rw [readReleased, stuck]
  · have reading : readPressed v p = pressed v p (n + 1) := by
      rcases reads with pressing | ⟨up, rfl, free⟩
      · exact readPressed_pressing pressing
      · exact readPressed_up up free
    rw [reading]
    exact ⟨pressed_below, pressed_ghost⟩
  · rw [pressCorner, Bool.or_eq_true, meetsPress_iff]

/-! ### Delivery (R165, R166, R169) -/

/-- Settles O41. -/
theorem keyDeliveryRule : Obligations.KeyDeliveryRule := by
  refine ⟨fun s e relevant now => ⟨fun up room => ?_, fun up full => ?_, fun down press relevant room => ?_,
    fun down press relevant full => ?_, fun down other => ?_⟩, fun s k r d recorded rep timer due => ?_,
    fun s p now => ⟨?_, fun synthesized => ?_⟩⟩
  · rw [deliver, if_pos up, offerKeyEvent, if_pos room]
  · rw [deliver, if_pos up, offerKeyEvent, if_neg (Nat.not_lt.2 full)]
  · rw [deliver, if_neg (by simp [down]), if_pos (by simp [press, relevant]), offerFieldKey, if_pos room]
  · rw [deliver, if_neg (by simp [down]), if_pos (by simp [press, relevant]), offerFieldKey,
      if_neg (Nat.not_lt.2 full)]
  · rw [deliver, if_neg (by simp [down]), if_neg (by simpa [Classical.or_iff_not_imp_left] using other)]
  · have ran : (r.rep && timerDue r.timer s.clock.ms) = true := by
      rw [rep, timer]
      exact decide_eq_true due
    show execRepeatExpiry k s = _
    rw [execRepeatExpiry, recorded]
    exact congrArg _ (if_pos ran)
  · simp only [takeOutcome, pressOutcome, Bool.and_eq_true, bne_iff_ne]
    rfl
  · show releaseOutcome p synthesized now s = _
    unfold releaseOutcome
    cases s.keyUnit.records[p] <;> rfl

/-! ### Chords (R170 to R172) -/

theorem isHeld_iff (x : KeyState) :
    x.isHeld = true ↔ (∃ since : Word, x = .down since) ∨ ∃ (n : Nat) (since : Word), x = .releasing n since := by
  cases x <;> simp [KeyState.isHeld]

theorem chordHeld_iff (e : ChordEntry) (s : State) : chordHeld e s = true ↔ ∀ p ∈ e.first :: e.second :: e.third.toList,
    (∃ since : Word, s.keypad.keys[p] = .down since) ∨
      ∃ (n : Nat) (since : Word), s.keypad.keys[p] = .releasing n since := by
  rw [chordHeld, List.all_eq_true]
  exact forall₂_congr fun p _ => isHeld_iff _

section
variable {s : State} {k : ChordId} (now : Instant) (valid : s.tables.chord.live[k].valid = true)
include valid

theorem updateChord_held (held : chordHeld s.tables.chord.live[k] s = true) : updateChord now s k =
    if s.keyUnit.chords[k] = .idle then setChord k (.holding ⟨now.ms, s.tables.chord.live[k].holdTime⟩) s else s := by
  simp only [updateChord, valid, if_true, held]
  cases s.keyUnit.chords[k] <;> simp [startTimer]

theorem updateChord_released (held : chordHeld s.tables.chord.live[k] s = false) : updateChord now s k =
    match s.keyUnit.chords[k] with
    | .idle => s
    | .holding _ => bump Ctr.keysChordsAbandoned (setChord k .idle s)
    | .fired => setChord k .idle s := by
  simp only [updateChord, valid, if_true, held]
  cases s.keyUnit.chords[k] <;> rfl

end

/-- The action of a chord, in the state that its notice and its count leave. -/
theorem chordAct_noticed {s u : State} (e : ChordEntry) (live : u.live = s.live)
    (tables : u.tables = s.tables) : chordAct e s.clock u = (match e.action with
      | .restartHost | .powerCycleHost =>
        if hostPowerEnable s = true then uncountedRestart .operatorChord (e.action == .powerCycleHost) s.clock u
        else bump Ctr.livenessIgnoredOperatorRequests u
      | .releaseHost =>
        if s.live.state = .off ∨ s.live.state = .latched then releaseHost s.clock u
        else bump Ctr.livenessIgnoredOperatorRequests u
      | .grantPermit =>
        { u with mgmt := { u.mgmt with permit := some ⟨s.clock.ms, (settings s).permitTime.toNat * 60000⟩ } }
      | .flagPattern => { u with flags := applyPattern e.pattern u.flags }
      | .noticeOnly => u) := by
  have powered : hostPowerEnable u = hostPowerEnable s := by rw [hostPowerEnable, live]; rfl
  have minutes : settings u = settings s := by rw [settings, tables]; rfl
  unfold chordAct
  cases action : e.action with
  | restartHost =>
    have kind : (ChordAction.restartHost == .powerCycleHost) = false := by decide
    simp [chordRestart, powered, kind]
  | powerCycleHost => simp [chordRestart, powered]
  | releaseHost =>
    have releasable : s.live.state.isReleasable = true ↔ s.live.state = .off ∨ s.live.state = .latched := by
      cases s.live.state <;> simp [Liveness.isReleasable]
    simp only [chordRelease, live, releasable]
  | grantPermit => rw [grantPermit, minutes]; rfl
  | flagPattern => rfl
  | noticeOnly => rfl

/-- Settles O42. -/
theorem chordFireRule : Obligations.ChordFireRule := by
  refine ⟨fun s k hold holding due => ?_, fun s k now => ⟨fun invalid => ?_, fun valid members => ?_,
    fun valid apart => ?_⟩⟩
  · intro e noticed
    have fired : exec (.chordFire k) s = .next (fireChord k s.clock s) := by
      show execChordFire k s = _
      rw [execChordFire, holding]
      exact congrArg _ (if_pos (decide_eq_true due))
    rw [fired]
    refine congrArg _ ?_
    cases taken : e.condition.holds s with
    | false => exact (if_neg (by rw [taken]; decide)).trans (if_pos rfl).symm
    | true =>
      refine ((if_pos taken).trans ?_).trans (if_neg (by decide)).symm
      exact chordAct_noticed e (composeNotice_live ..) (composeNotice_tables ..)
  · exact if_neg (Bool.eq_false_iff.1 invalid)
  · exact updateChord_held now valid ((chordHeld_iff _ _).2 members)
  · have free : chordHeld s.tables.chord.live[k] s = false := by
      rw [← Bool.not_eq_true, chordHeld_iff]
      exact apart
    refine ⟨fun hold holding => ?_, fun fired => ?_, fun idle => ?_⟩ <;>
      refine (updateChord_released now valid free).trans ?_
    · rw [holding]
      rfl
    · rw [fired]
      rfl
    · rw [idle]

end Sys2Proof.Machine
end

section
/-! SUPPORT. The keypad sample event (O40). -/

namespace Sys2Proof.Machine

/-! ### The scanner's parts (R143 to R155) -/

theorem noteSet_same {set : DebounceSet} {s : State} (same : s.keypad.lastSet = none ∨ s.keypad.lastSet = some set) :
    noteSet set s = { s with keypad := { s.keypad with lastSet := some set } } := by
  unfold noteSet
  rcases same with first | again
  · rw [first]
    rfl
  · rw [again]
    cases set <;> rfl

theorem noteSet_switched {set : DebounceSet} {s : State}
    (switched : ¬ (s.keypad.lastSet = none ∨ s.keypad.lastSet = some set)) : noteSet set s =
      bump Ctr.keysDebounceSetSwitches { s with keypad := { s.keypad with lastSet := some set } } := by
  unfold noteSet
  rw [not_or] at switched
  obtain ⟨old, last⟩ := Option.ne_none_iff_exists'.1 switched.1
  have other : old ≠ set := fun h => switched.2 (by rw [last, h])
  rw [last]
  exact if_pos (bne_iff_ne.2 other)

/-- The quiet run of a Flooded keypad after a sample (R154). -/
def quietRun (raw : BitVec 48) (clear : Nat) (now : Word) (k : Keypad) : Keypad :=
  if raw = 0 then
    if clear ≤ elapsed (k.quietStart.getD now) now then { k with flooded := false, quietStart := none }
    else { k with quietStart := some (k.quietStart.getD now) }
  else { k with quietStart := none }

theorem feedQuietRun_eq (raw : BitVec 48) (s : State) : feedQuietRun raw s =
    { s with keypad := quietRun raw (settings s).floodClear.toNat s.clock.ms s.keypad } := by
  simp only [feedQuietRun, quietRun]
  split
  · split <;> rfl
  · rfl

theorem quietRun_keys (raw : BitVec 48) (clear : Nat) (now : Word) (k : Keypad) :
    (quietRun raw clear now k).keys = k.keys ∧ (quietRun raw clear now k).lastSet = k.lastSet ∧
    (quietRun raw clear now k).interval = k.interval := by
  unfold quietRun
  split
  · split <;> exact ⟨rfl, rfl, rfl⟩
  · exact ⟨rfl, rfl, rfl⟩

/-- The keypad after a sample event that is due (R143). -/
def keypadAfter (raw : BitVec 48) (s : State) : Keypad :=
  let k : Keypad := { s.keypad with
    lastSet := some (chooseSet s)
    lastSample := s.keypad.lastSample + BitVec.ofNat 32 s.keypad.interval
    interval := (settings s).scanInterval.toNat }
  if s.keypad.flooded = true then quietRun raw (settings s).floodClear.toNat s.clock.ms k
  else if (settings s).floodCount ≤ (pressedCount raw : Int) then
    { k with keys := Vector.replicate 48 .up, flooded := true, quietStart := none }
  else { k with keys := Vector.ofFn fun p : KeyPos => (sampleKey (sampleView (chooseSet s) raw s) p).1 }

/-- What happens to a key in a sample (R146 to R152). -/
def sampleHappening (raw : BitVec 48) (s : State) (p : KeyPos) : KeyHappening :=
  (sampleKey (sampleView (chooseSet s) raw s) p).2

/-- The outcomes that a sample hands over (R155). -/
def sampleOutcomes (raw : BitVec 48) (s : State) : List KeyOutcome :=
  if s.keypad.flooded = true then []
  else if s.keypad.flooded = false ∧ (settings s).floodCount ≤ (pressedCount raw : Int) then
    ((List.finRange 48).filter fun p => s.keypad.keys[p].isHeld).map fun p => .release p true
  else (List.finRange 48).filterMap fun p => (sampleHappening raw s p).outcome p

/-- The sample counted and noticed, on the keypad that it leaves (R144, R153, R155). -/
def sampleCounted (raw : BitVec 48) (s : State) : State :=
  let noted := { s with keypad := keypadAfter raw s }
  if s.keypad.lastSet = none ∨ s.keypad.lastSet = some (chooseSet s) then noted
  else bump Ctr.keysDebounceSetSwitches noted

/-- The state that a sample leaves before its outcomes are handed over. -/
def sampleScanned (raw : BitVec 48) (s : State) : State :=
  if s.keypad.flooded = true then sampleCounted raw s
  else if s.keypad.flooded = false ∧ (settings s).floodCount ≤ (pressedCount raw : Int) then
    bumpBy Ctr.keysSynthesizedReleases (sampleOutcomes raw s).length (bump Ctr.keysFloods (sampleCounted raw s))
  else (List.finRange 48).foldl (fun u p => reportHappening p (sampleHappening raw s p) u) (sampleCounted raw s)

/-- The set is noted on the keypad as the pace leaves it, and then the keypad takes any value. -/
theorem noteSet_keypad (s : State) (k : Keypad) :
    { noteSet (chooseSet s) (nextKeypadSample s) with keypad := k } =
      if s.keypad.lastSet = none ∨ s.keypad.lastSet = some (chooseSet s) then { s with keypad := k }
      else bump Ctr.keysDebounceSetSwitches { s with keypad := k } := by
  split
  · rename_i same
    rw [noteSet_same (s := nextKeypadSample s) same]
    rfl
  · rename_i switched
    rw [noteSet_switched (s := nextKeypadSample s) switched]
    rfl

theorem noteSet_view (s : State) :
    (noteSet (chooseSet s) (nextKeypadSample s)).clock = s.clock ∧
    (noteSet (chooseSet s) (nextKeypadSample s)).tables = s.tables ∧
    (noteSet (chooseSet s) (nextKeypadSample s)).keypad = { s.keypad with
      lastSet := some (chooseSet s)
      lastSample := s.keypad.lastSample + BitVec.ofNat 32 s.keypad.interval
      interval := (settings s).scanInterval.toNat } := by
  by_cases same : s.keypad.lastSet = none ∨ s.keypad.lastSet = some (chooseSet s)
  · rw [noteSet_same (s := nextKeypadSample s) same]
    exact ⟨rfl, rfl, rfl⟩
  · rw [noteSet_switched (s := nextKeypadSample s) same]
    exact ⟨rfl, rfl, rfl⟩

/-- A sample on a keypad that is not Flooded and has fewer than floodCount positions pressed (R145). -/
theorem handleKeys_eq {raw : BitVec 48} {s u : State} (view : sampleView (chooseSet s) raw u =
    sampleView (chooseSet s) raw s) : handleKeys (chooseSet s) raw u =
      ((List.finRange 48).foldl (fun u p => reportHappening p (sampleHappening raw s p) u)
        { u with keypad := { u.keypad with
          keys := Vector.ofFn fun p : KeyPos => (sampleKey (sampleView (chooseSet s) raw s) p).1 } },
      (List.finRange 48).filterMap fun p => (sampleHappening raw s p).outcome p) := by
  unfold handleKeys sampleHappening
  rw [view]
  simp

theorem scanSample_eq (raw : BitVec 48) (s : State) :
    scanSample raw (nextKeypadSample s) = (sampleScanned raw s, sampleOutcomes raw s) := by
  obtain ⟨clock, tables, keypad⟩ := noteSet_view s
  have counted : sampleCounted raw s =
      { noteSet (chooseSet s) (nextKeypadSample s) with keypad := keypadAfter raw s } := (noteSet_keypad s _).symm
  have scanned : scanSample raw (nextKeypadSample s) =
      let u := noteSet (chooseSet s) (nextKeypadSample s)
      if u.keypad.flooded = true then (feedQuietRun raw u, [])
      else if (settings u).floodCount ≤ (pressedCount raw : Int) then enterFlood u
      else handleKeys (chooseSet s) raw u := rfl
  generalize noteSet (chooseSet s) (nextKeypadSample s) = u at clock tables keypad counted scanned
  have table : settings u = settings s := by
    rw [settings, tables]
    rfl
  have flooded : u.keypad.flooded = s.keypad.flooded := by rw [keypad]
  have keys : u.keypad.keys = s.keypad.keys := by rw [keypad]
  rw [scanned, sampleScanned, sampleOutcomes, counted]
  simp only [flooded, table]
  by_cases isFlooded : s.keypad.flooded = true
  · simp only [isFlooded, if_true]
    rw [feedQuietRun_eq, table, clock, keypad, keypadAfter, if_pos isFlooded]
  · have normal : s.keypad.flooded = false := Bool.eq_false_iff.2 isFlooded
    by_cases floods : (settings s).floodCount ≤ (pressedCount raw : Int)
    · have after : { u.keypad with keys := Vector.replicate 48 .up, flooded := true, quietStart := none } =
          keypadAfter raw s := by
        rw [keypadAfter, if_neg isFlooded, if_pos floods, keypad]
      simp only [normal, floods, if_true, and_self, Bool.false_eq_true, if_false, enterFlood, keys, after,
        List.length_map]
    · have after : { u.keypad with keys := Vector.ofFn fun p : KeyPos =>
          (sampleKey (sampleView (chooseSet s) raw s) p).1 } = keypadAfter raw s := by
        rw [keypadAfter, if_neg isFlooded, if_neg floods, keypad]
      have view : sampleView (chooseSet s) raw u = sampleView (chooseSet s) raw s := by
        rw [sampleView, keys, table, clock]
        rfl
      simp only [normal, floods, and_false, Bool.false_eq_true, if_false, handleKeys_eq view, after]

/-! ### What a sample leaves alone -/

theorem sampleScanned_keypad (raw : BitVec 48) (s : State) : (sampleScanned raw s).keypad = keypadAfter raw s := by
  have counted : (sampleCounted raw s).keypad = keypadAfter raw s := by
    unfold sampleCounted
    split <;> rfl
  unfold sampleScanned
  split
  · exact counted
  · split
    · exact counted
    · rw [foldl_reportHappening_keypad, counted]

theorem sampleScanned_keeps {β : Type} (g : State → β) (raw : BitVec 48) (s : State)
    (keypad : ∀ u (k : Keypad), g { u with keypad := k } = g u) (counter : ∀ id n u, g (bumpBy id n u) = g u)
    (report : ∀ p h u, g (reportHappening p h u) = g u) : g (sampleScanned raw s) = g s := by
  have scanned := scanSample_keeps g raw s keypad counter report
  rwa [scanSample_eq] at scanned

/-! ### The sample event (R143) -/

theorem keypadDue_iff (s : State) :
    keypadDue s = true ↔ s.keypad.interval ≤ elapsed s.keypad.lastSample s.clock.ms := decide_eq_true_iff

/-- The state after a sample event that is due. -/
def sampleTaken (raw : BitVec 48) (s : State) : State :=
  updateChords s.clock (handOverOutcomes (sampleOutcomes raw s) s.clock (sampleScanned raw s))

/-- What the scanner, the handover and the chords all leave alone. -/
theorem sampleTaken_keeps {β : Type} (g : State → β) (raw : BitVec 48) (s : State)
    (keypad : ∀ u (k : Keypad), g { u with keypad := k } = g u) (counter : ∀ id n u, g (bumpBy id n u) = g u)
    (report : ∀ p h u, g (reportHappening p h u) = g u)
    (handOver : ∀ os t u, g (handOverOutcomes os t u) = g u) (chords : ∀ t u, g (updateChords t u) = g u) :
    g (sampleTaken raw s) = g s := by
  rw [sampleTaken, chords, handOver, sampleScanned_keeps g raw s keypad counter report]

theorem exec_keypadSample {s : State} (raw : BitVec 48)
    (due : s.keypad.interval ≤ elapsed s.keypad.lastSample s.clock.ms) :
    exec (.keypadSample raw) s = .next (sampleTaken raw s) := by
  refine (congrArg _ (if_pos ((keypadDue_iff s).2 due))).trans ?_
  rw [scanSample_eq]
  rfl

theorem sampleTaken_keypad (raw : BitVec 48) (s : State) : (sampleTaken raw s).keypad = keypadAfter raw s := by
  rw [sampleTaken, updateChords_keypad, handOverOutcomes_keypad, sampleScanned_keypad]

theorem keypadAfter_set (raw : BitVec 48) (s : State) :
    (keypadAfter raw s).lastSet = some (chooseSet s) ∧
    (keypadAfter raw s).interval = (settings s).scanInterval.toNat := by
  unfold keypadAfter
  split
  · obtain ⟨-, lastSet, interval⟩ := quietRun_keys raw (settings s).floodClear.toNat s.clock.ms { s.keypad with
      lastSet := some (chooseSet s)
      lastSample := s.keypad.lastSample + BitVec.ofNat 32 s.keypad.interval
      interval := (settings s).scanInterval.toNat }
    exact ⟨lastSet, interval⟩
  · split <;> exact ⟨rfl, rfl⟩

theorem keypadAfter_flooded {raw : BitVec 48} {s : State} (flooded : s.keypad.flooded = true) :
    keypadAfter raw s = quietRun raw (settings s).floodClear.toNat s.clock.ms { s.keypad with
      lastSet := some (chooseSet s)
      lastSample := s.keypad.lastSample + BitVec.ofNat 32 s.keypad.interval
      interval := (settings s).scanInterval.toNat } :=
  if_pos flooded

theorem keypadAfter_floods {raw : BitVec 48} {s : State} (normal : s.keypad.flooded = false)
    (floods : (settings s).floodCount ≤ (pressedCount raw : Int)) :
    (keypadAfter raw s).flooded = true ∧ (keypadAfter raw s).quietStart = none ∧
    (keypadAfter raw s).keys = Vector.replicate 48 .up := by
  rw [keypadAfter, if_neg (by simp [normal]), if_pos floods]
  exact ⟨rfl, rfl, rfl⟩

/-- The happenings of section 7.5 that count and notice. -/
theorem reportHappening_spec (s : State) (p : KeyPos) :
    (∀ h ∈ [KeyHappening.nothing, .press, .release], reportHappening p h s = s) ∧
    reportHappening p .shortPress s = bump Ctr.keysShortPresses s ∧
    reportHappening p .ghost s = bump Ctr.keysGhostKeys s ∧
    reportHappening p .synthesizedRelease s = composeNotice 0xC5 [1, byte p] (bump Ctr.keysStuckKeys s) ∧
    reportHappening p .recovery s = composeNotice 0xC5 [2, byte p] (bump Ctr.keysStuckRecoveries s) ∧
    (∀ h ∈ [KeyHappening.nothing, .shortPress, .ghost, .recovery], h.outcome p = none) ∧
    KeyHappening.press.outcome p = some (.press p) ∧ KeyHappening.release.outcome p = some (.release p false) ∧
    KeyHappening.synthesizedRelease.outcome p = some (.release p true) := by
  refine ⟨fun h mem => ?_, rfl, rfl, rfl, rfl, fun h mem => ?_, rfl, rfl, rfl⟩ <;>
    simp only [List.mem_cons, List.not_mem_nil, or_false] at mem
  · rcases mem with rfl | rfl | rfl <;> rfl
  · rcases mem with rfl | rfl | rfl | rfl <;> rfl

theorem chooseSet_normal {s : State} {g : Int} (glass : workingGlass s = some g)
    (warm : (settings s).keyColdTemp ≤ g) : chooseSet s = .normal := by
  rw [chooseSet, glass]
  exact if_pos warm

theorem chooseSet_cold {s : State} (cold : ∀ g : Int, workingGlass s = some g → g < (settings s).keyColdTemp) :
    chooseSet s = .cold := by
  rcases Option.eq_none_or_eq_some (workingGlass s) with absent | ⟨g, glass⟩
  · rw [chooseSet, absent]
  · rw [chooseSet, glass]
    exact if_neg (Int.not_le.2 (cold g glass))

/-- Settles O40: the sample's handover by its happenings, and the keypad that it leaves. -/
theorem keypadSampleRule : Obligations.KeypadSampleRule := by
  refine ⟨fun s raw => ⟨fun early => ?_, fun due => ⟨_, exec_keypadSample raw due, ?_⟩⟩,
    fun s raw due => ⟨_, exec_keypadSample raw due, ?_⟩, reportHappening_spec,
    fun s raw => ⟨fun p => rfl, rfl, rfl, rfl, rfl, fun g glass warm => ?_, fun cold => ?_⟩⟩
  · refine congrArg _ (if_neg ?_)
    rw [keypadDue_iff]
    exact Nat.not_le.2 early
  · rw [sampleTaken_keypad]
    obtain ⟨lastSet, interval⟩ := keypadAfter_set raw s
    refine ⟨?_, lastSet, interval, ?_, ?_, ?_, ?_, ?_, ?_, ?_⟩
    · split
      · rename_i flooded
        rw [keypadAfter_flooded flooded]
        exact (quietRun_keys ..).1
      · rename_i notFlooded
        have normal : s.keypad.flooded = false := Bool.eq_false_iff.2 notFlooded
        split
        · rename_i floods
          obtain ⟨flooded, -, keys⟩ := keypadAfter_floods normal floods
          exact ⟨flooded, fun k => by rw [keys]; simp⟩
        · rename_i fewer
          rw [keypadAfter, if_neg notFlooded, if_neg fewer]
          exact ⟨normal, fun k => by simp⟩
    · exact sampleTaken_keeps State.live raw s (fun _ _ => rfl) (by simp) (by simp) (by simp) (by simp)
    · exact sampleTaken_keeps State.tables raw s (fun _ _ => rfl) (by simp) (by simp) (by simp) (by simp)
    · exact sampleTaken_keeps State.temp raw s (fun _ _ => rfl) (by simp) (by simp) (by simp) (by simp)
    · exact sampleTaken_keeps State.heat raw s (fun _ _ => rfl) (by simp) (by simp) (by simp) (by simp)
    · exact sampleTaken_keeps State.flags raw s (fun _ _ => rfl) (by simp) (by simp) (by simp) (by simp)
    · exact sampleTaken_keeps State.exchanges raw s (fun _ _ => rfl) (by simp) (by simp) (by simp) (by simp)
    · exact sampleTaken_keeps State.fieldPort raw s (fun _ _ => rfl) (by simp) (by simp) (by simp) (by simp)
  · rw [sampleTaken_keypad]
    refine ⟨rfl, fun flooded pressed => ?_, fun flooded quiet ran => ?_, fun flooded quiet short => ?_,
      fun ⟨normal, floods⟩ => (keypadAfter_floods normal floods).2.1⟩ <;> rw [keypadAfter_flooded flooded, quietRun]
    · rw [if_neg pressed]
      exact ⟨flooded, rfl⟩
    · rw [if_pos quiet, if_pos ran]
      exact ⟨rfl, rfl⟩
    · rw [if_pos quiet, if_neg (Nat.not_le.2 short)]
      exact ⟨flooded, rfl⟩
  · rw [chooseSet_normal glass warm]
    exact ⟨rfl, rfl, rfl⟩
  · rw [chooseSet_cold cold]
    exact ⟨rfl, rfl, rfl⟩

end Sys2Proof.Machine
end

section
/-! SUPPORT. The parts of a sampling event: channels, readiness and Hot (O32, O33). -/

namespace Sys2Proof.Machine

/-! ### Channels (R101 to R103, R106) -/

theorem codeValid_iff (code : Nat) : codeValid code = true ↔ 16 ≤ code ∧ code ≤ 4079 := by
  simp [codeValid]

theorem sampled_valid {curve : CurveTable} {code : Nat} (h : 16 ≤ code ∧ code ≤ 4079) (f : Int) (held : Option Int) :
    Channel.unseeded.sampled curve code = .valid (convert curve code) ∧
    (Channel.faulted held).sampled curve code = .valid (convert curve code) ∧
    (Channel.valid f).sampled curve code = .valid (f + (convert curve code - f).tdiv 4) := by
  have good := (codeValid_iff code).2 h
  simp [Channel.sampled, good, filterStep]

theorem sampled_fault {curve : CurveTable} {code : Nat} (h : ¬ (16 ≤ code ∧ code ≤ 4079)) (f : Int)
    (held : Option Int) :
    Channel.unseeded.sampled curve code = .faulted none ∧
    (Channel.faulted held).sampled curve code = .faulted held ∧
    (Channel.valid f).sampled curve code = .faulted (some f) := by
  have bad : codeValid code = false := by rw [← Bool.not_eq_true, codeValid_iff]; exact h
  simp [Channel.sampled, bad]

theorem setChannel_channel (m : TemperatureMonitor) (x : Sensor) (c : Channel) : (m.setChannel x c).channel x = c := by
  cases x <;> rfl

/-- A channel is set; its change into or out of Faulted is counted and noticed (R102, R103). -/
theorem sampleChannel_eq (s : State) (x : Sensor) (code : SensorCode) :
    let old := s.temp.channel x
    let new := old.sampled (sensorCurve s x) code.toNat
    let u := { s with temp := s.temp.setChannel x new }
    sampleChannel x code s =
      (if old.isFaulted = false ∧ new.isFaulted = true then
        composeNotice 0xC3 ([byte x.code, 1] ++ beInt16 new.reported) (bump (faultCounter x) u)
      else if old.isFaulted = true ∧ new.isFaulted = false then
        composeNotice 0xC3 ([byte x.code, 2] ++ beInt16 new.reported) (bump (recoveryCounter x) u)
      else u) := by
  intro old new u
  have noticed (id : CounterId) (event : Nat) : thermalNotice x event (bump id u) =
      composeNotice 0xC3 ([byte x.code, byte event] ++ beInt16 new.reported) (bump id u) := by
    have channel : (bump id u).temp.channel x = new := setChannel_channel ..
    rw [thermalNotice, channel]
    rfl
  have run : sampleChannel x code s =
      if (new.isFaulted && !old.isFaulted) = true then thermalNotice x 1 (bump (faultCounter x) u)
      else if (old.isFaulted && !new.isFaulted) = true then thermalNotice x 2 (bump (recoveryCounter x) u) else u := rfl
  rw [run, noticed, noticed]
  refine if_congr ?_ rfl (if_congr ?_ rfl rfl)
  · rw [Bool.and_eq_true, Bool.not_eq_true', and_comm]
  · rw [Bool.and_eq_true, Bool.not_eq_true']

theorem sampleChannel_temp (x : Sensor) (code : SensorCode) (s : State) : (sampleChannel x code s).temp =
    s.temp.setChannel x ((s.temp.channel x).sampled (sensorCurve s x) code.toNat) := by
  rw [sampleChannel_eq]
  split
  · exact composeNotice_temp ..
  · split
    · exact composeNotice_temp ..
    · rfl

theorem sensorCurve_congr {s t : State} (h : t.tables = s.tables) (x : Sensor) : sensorCurve t x = sensorCurve s x := by
  unfold sensorCurve settings
  rw [h]

/-- A running learn is abandoned where it has lost Board or Air (R138). -/
theorem abandonLearnOnLoss_eq (before s : State) : abandonLearnOnLoss before s =
    if ((before.temp.board.isValid && !s.temp.board.isValid) ||
        (before.temp.air.isValid && !s.temp.air.isValid)) = true ∧ s.fan.learn.isLearning = true then
      bump Ctr.thermalLearnsAbandoned { s with fan := { s.fan with learn := .abandoned } }
    else s := by
  unfold abandonLearnOnLoss
  rw [abandonLearn_eq]
  split
  · simp [*]
  · simp [*]

/-- The three channels in order, and then what their change ends or counts (R101, R107, R108, R138). -/
theorem sampleChannels_eq (s : State) (board glass air : SensorCode) :
    let c := sampleChannel .air air (sampleChannel .glass glass (sampleChannel .board board s))
    let lost := (s.temp.board.isValid && !c.temp.board.isValid) || (s.temp.air.isValid && !c.temp.air.isValid)
    let d := if lost = true ∧ c.fan.learn.isLearning = true then
        bump Ctr.thermalLearnsAbandoned { c with fan := { c.fan with learn := .abandoned } }
      else c
    let e := if c.temp.air.isValid = true ∧ (c.temp.board.isValid = false ∨ c.temp.glass.isValid = false) then
        bump Ctr.thermalStandInSamples d
      else d
    sampleChannels board glass air s =
      (if coldFallback c = true ∧ coldFallback s = false then bump Ctr.thermalFallbackEntries e else e) := by
  intro c lost d e
  have abandoned : abandonLearnOnLoss s c = d := abandonLearnOnLoss_eq s c
  have temp : d.temp = c.temp := abandoned ▸ abandonLearnOnLoss_temp s c
  have standIn : standInTaken d = true ↔
      c.temp.air.isValid = true ∧ (c.temp.board.isValid = false ∨ c.temp.glass.isValid = false) := by
    rw [standInTaken, temp]
    simp
  have counted : (if standInTaken d = true then bump Ctr.thermalStandInSamples d else d) = e := if_congr standIn rfl rfl
  have fallback : coldFallback e = coldFallback c := by
    have same : e.temp = c.temp := by
      rw [← temp]
      dsimp only [e]
      split <;> rfl
    rw [coldFallback, workingBoard, workingGlass, same]
    rfl
  have run : sampleChannels board glass air s =
      let u := if standInTaken (abandonLearnOnLoss s c) = true then
        bump Ctr.thermalStandInSamples (abandonLearnOnLoss s c) else abandonLearnOnLoss s c
      if (coldFallback u && !coldFallback s) = true then bump Ctr.thermalFallbackEntries u else u := rfl
  rw [run, abandoned, counted]
  dsimp only
  rw [fallback]
  exact if_congr (by rw [Bool.and_eq_true, Bool.not_eq_true']) rfl rfl

/-- The channels, one after the other. -/
def channelsSampled (board glass air : SensorCode) (s : State) : State :=
  sampleChannel .air air (sampleChannel .glass glass (sampleChannel .board board s))

/-- What follows the channels touches the learn and what is counted of the monitor. -/
theorem sampleChannels_parts (board glass air : SensorCode) (s : State) :
    let c := channelsSampled board glass air s
    let t := sampleChannels board glass air s
    t.temp = c.temp ∧ t.counters.liveness = c.counters.liveness ∧
    t.fan = { c.fan with learn :=
      if c.fan.learn.isLearning = true ∧ ((s.temp.board.isValid = true ∧ c.temp.board.isValid = false) ∨
        (s.temp.air.isValid = true ∧ c.temp.air.isValid = false)) then .abandoned else c.fan.learn } := by
  intro c t
  have lost : ((s.temp.board.isValid && !c.temp.board.isValid) || (s.temp.air.isValid && !c.temp.air.isValid)) = true ∧
      c.fan.learn.isLearning = true ↔ c.fan.learn.isLearning = true ∧
        ((s.temp.board.isValid = true ∧ c.temp.board.isValid = false) ∨
          (s.temp.air.isValid = true ∧ c.temp.air.isValid = false)) := by
    rw [and_comm]
    simp
  let d := abandonLearnOnLoss s c
  have loss : d = if c.fan.learn.isLearning = true ∧
      ((s.temp.board.isValid = true ∧ c.temp.board.isValid = false) ∨
        (s.temp.air.isValid = true ∧ c.temp.air.isValid = false)) then
      bump Ctr.thermalLearnsAbandoned { c with fan := { c.fan with learn := .abandoned } } else c :=
    (abandonLearnOnLoss_eq s c).trans (if_congr lost rfl rfl)
  have abandoned : d.temp = c.temp ∧ d.counters.liveness = c.counters.liveness ∧ d.fan = { c.fan with learn :=
      if c.fan.learn.isLearning = true ∧ ((s.temp.board.isValid = true ∧ c.temp.board.isValid = false) ∨
        (s.temp.air.isValid = true ∧ c.temp.air.isValid = false)) then .abandoned else c.fan.learn } := by
    rw [loss]
    split <;> exact ⟨rfl, rfl, rfl⟩
  have rest (id : CounterId) (group : ∀ n u, (bumpBy id n u).counters.liveness = u.counters.liveness) (p : Prop)
      [Decidable p] (u : State) : (if p then bump id u else u).temp = u.temp ∧
      (if p then bump id u else u).counters.liveness = u.counters.liveness ∧
      (if p then bump id u else u).fan = u.fan := by
    split
    · exact ⟨rfl, group 1 u, rfl⟩
    · exact ⟨rfl, rfl, rfl⟩
  obtain ⟨standInTemp, standInCount, standInFan⟩ := rest Ctr.thermalStandInSamples (fun _ _ => rfl)
    (standInTaken d = true) d
  let e := if standInTaken d = true then bump Ctr.thermalStandInSamples d else d
  obtain ⟨temp, count, fan⟩ := rest Ctr.thermalFallbackEntries (fun _ _ => rfl)
    ((coldFallback e && !coldFallback s) = true) e
  exact ⟨temp.trans (standInTemp.trans abandoned.1), count.trans (standInCount.trans abandoned.2.1),
    fan.trans (standInFan.trans abandoned.2.2)⟩

/-- The channels after a sampling event; nothing else of the monitor moves with them (R101, R102). -/
theorem sampleChannels_temp (board glass air : SensorCode) (s : State) : (sampleChannels board glass air s).temp =
    { s.temp with
      board := s.temp.board.sampled (sensorCurve s .board) board.toNat
      glass := s.temp.glass.sampled (sensorCurve s .glass) glass.toNat
      air := s.temp.air.sampled (sensorCurve s .air) air.toNat } := by
  have glassCurve := sensorCurve_congr (sampleChannel_tables .board board s) .glass
  have airCurve := sensorCurve_congr ((sampleChannel_tables .glass glass (sampleChannel .board board s)).trans
    (sampleChannel_tables .board board s)) .air
  rw [(sampleChannels_parts ..).1, channelsSampled, sampleChannel_temp, sampleChannel_temp, sampleChannel_temp,
    glassCurve, airCurve]
  rfl

theorem sampleChannels_fan (board glass air : SensorCode) (s : State) :
    let t := sampleChannels board glass air s
    t.fan = { s.fan with learn :=
      if s.fan.learn.isLearning = true ∧ ((s.temp.board.isValid = true ∧ t.temp.board.isValid = false) ∨
        (s.temp.air.isValid = true ∧ t.temp.air.isValid = false)) then .abandoned else s.fan.learn } := by
  obtain ⟨temp, -, fan⟩ := sampleChannels_parts board glass air s
  have same : (channelsSampled board glass air s).fan = s.fan := by simp [channelsSampled]
  rw [same] at fan
  dsimp only
  rw [temp]
  exact fan

/-! ### What is counted of liveness -/

theorem composeNotice_liveness (topic : Byte) (payload : List Byte) (s : State) :
    (composeNotice topic payload s).counters.liveness = s.counters.liveness := by
  unfold composeNotice
  split
  · split
    · rw [queueNotice_eq]
    · rfl
  · rfl

theorem sampleChannel_liveness (x : Sensor) (code : SensorCode) (s : State) :
    (sampleChannel x code s).counters.liveness = s.counters.liveness := by
  rw [sampleChannel_eq]
  split
  · rw [composeNotice_liveness]
    cases x <;> rfl
  · split
    · rw [composeNotice_liveness]
      cases x <;> rfl
    · rfl

theorem sampleChannels_liveness (board glass air : SensorCode) (s : State) :
    (sampleChannels board glass air s).counters.liveness = s.counters.liveness := by
  rw [(sampleChannels_parts ..).2.1, channelsSampled, sampleChannel_liveness, sampleChannel_liveness,
    sampleChannel_liveness]

/-! ### Working values (R107) -/

theorem workingValue_eq (own air : Channel) :
    (own.usable <|> air.usable) = if own.isValid = true then own.usable else air.usable := by
  cases own <;> rfl

/-! ### Hot (R113, R114) -/

/-- Hot after a sampling event, from the working Board value (R113, R114). -/
def hotAfter (s : State) : Bool :=
  match workingBoard s with
  | none => false
  | some b => if s.temp.hot = true then decide ((settings s).resumeTemp ≤ b)
      else decide ((settings s).shutdownTemp ≤ b)

theorem evaluateHot_eq (s : State) : evaluateHot s =
    (let withHot : Bool → State := fun hot => { s with temp := { s.temp with hot := hot } }
    match s.temp.hot, workingBoard s with
    | false, some b => if (settings s).shutdownTemp ≤ b then bump Ctr.thermalHotRaised (withHot true) else s
    | true, some b => if b < (settings s).resumeTemp then withHot false else s
    | true, none => bump Ctr.thermalHotClearedWithoutValue (withHot false)
    | false, none => s) := by
  unfold evaluateHot
  cases workingBoard s <;> cases s.temp.hot <;> rfl

theorem withHot_self {s : State} {hot : Bool} (h : s.temp.hot = hot) :
    s = { s with temp := { s.temp with hot := hot } } := by
  subst h
  rfl

/-- Hot moves as `hotAfter` says, and nothing but what is counted of the monitor moves with it. -/
theorem evaluateHot_frame (s : State) : evaluateHot s = { s with
    temp := { s.temp with hot := hotAfter s }
    counters := { s.counters with thermal := (evaluateHot s).counters.thermal } } := by
  have kept {hot : Bool} (h : s.temp.hot = hot) (value : hotAfter s = hot) : s = { s with
      temp := { s.temp with hot := hotAfter s }, counters := { s.counters with thermal := s.counters.thermal } } := by
    rw [value]
    exact withHot_self h
  rcases Option.eq_none_or_eq_some (workingBoard s) with absent | ⟨b, present⟩
  · have value : hotAfter s = false := by rw [hotAfter, absent]
    cases hot : s.temp.hot with
    | false =>
      have run : evaluateHot s = s := by rw [evaluateHot_eq, hot, absent]
      rw [run]
      exact kept hot value
    | true =>
      have run : evaluateHot s =
          bump Ctr.thermalHotClearedWithoutValue { s with temp := { s.temp with hot := false } } := by
        rw [evaluateHot_eq, hot, absent]
      rw [run, value]
      rfl
  · cases hot : s.temp.hot with
    | false =>
      have value : hotAfter s = decide ((settings s).shutdownTemp ≤ b) := by
        simp only [hotAfter, present, hot, Bool.false_eq_true, if_false]
      have run : evaluateHot s = if (settings s).shutdownTemp ≤ b then
          bump Ctr.thermalHotRaised { s with temp := { s.temp with hot := true } } else s := by
        rw [evaluateHot_eq, hot, present]
      by_cases high : (settings s).shutdownTemp ≤ b
      · rw [run, if_pos high, value, decide_eq_true high]
        rfl
      · rw [run, if_neg high]
        exact kept hot (value.trans (decide_eq_false high))
    | true =>
      have value : hotAfter s = decide ((settings s).resumeTemp ≤ b) := by
        simp only [hotAfter, present, hot, if_true]
      have run : evaluateHot s = if b < (settings s).resumeTemp then { s with temp := { s.temp with hot := false } }
          else s := by
        rw [evaluateHot_eq, hot, present]
      by_cases low : b < (settings s).resumeTemp
      · rw [run, if_pos low, value, decide_eq_false (Int.not_le.2 low)]
      · rw [run, if_neg low]
        exact kept hot (value.trans (decide_eq_true (Int.not_lt.1 low)))

/-! ### Readiness (R108 to R111) -/

theorem coldFallback_iff (s : State) : coldFallback s = true ↔ workingBoard s = none ∨ workingGlass s = none := by
  simp [coldFallback]

theorem fallbackElapsed_iff (now : Instant) (s : State) : fallbackElapsed now s = true ↔
    ∃ f : Word, s.temp.fallbackStart = some f ∧ (settings s).coldFallback.toNat * 60000 ≤ (now.ms - f).toNat := by
  unfold fallbackElapsed
  cases s.temp.fallbackStart with
  | none => simp
  | some f =>
    simp only [Option.some.injEq, exists_eq_left', elapsed]
    exact decide_eq_true_iff

theorem warmEnough_iff {s : State} {b g : Int} (board : workingBoard s = some b) (glass : workingGlass s = some g)
    (margin : Int) : warmEnough s margin = true ↔
      (settings s).bootMinTemp - margin ≤ b ∧ (settings s).glassMinTemp - margin ≤ g := by
  simp [warmEnough, board, glass]

/-- Readiness in cold fallback (R108). -/
theorem evaluateReadiness_fallback (now : Instant) {s : State} (cold : coldFallback s = true) :
    evaluateReadiness now s = if fallbackElapsed now s = true then
      if s.temp.readiness = .ready then setReadiness .ready none s
      else bump Ctr.thermalFallbackGrants (setReadiness .ready none s)
    else setReadiness .notReady none s := by
  rw [evaluateReadiness, if_pos cold, fallbackReadiness]
  simp only [beq_iff_eq]

theorem evaluateReadiness_measured (now : Instant) {s : State} (warm : coldFallback s = false) :
    evaluateReadiness now s = measuredReadiness now s :=
  if_neg (by simp [warm])

theorem startDwell_eq (now : Instant) (s : State) : startDwell now s =
    if (settings s).readyDwell ≤ 0 then setReadiness .ready none s
    else setReadiness .dwelling (some ⟨now.ms, (settings s).readyDwell.toNat * 1000⟩) s := by
  have length : (settings s).readyDwell.toNat * 1000 = 0 ↔ (settings s).readyDwell ≤ 0 := by omega
  simp only [startDwell, length]
  rfl

/-- Readiness, its dwell and a counter of the monitor are all that an evaluation changes. -/
theorem evaluateReadiness_frame (now : Instant) (s : State) : evaluateReadiness now s = { s with
    temp := { s.temp with
      readiness := (evaluateReadiness now s).temp.readiness, dwell := (evaluateReadiness now s).temp.dwell }
    counters := { s.counters with thermal := (evaluateReadiness now s).counters.thermal } } := by
  cases cold : coldFallback s with
  | true =>
    rw [evaluateReadiness_fallback now cold]
    split
    · split <;> rfl
    · rfl
  | false =>
    rw [evaluateReadiness_measured now cold]
    unfold measuredReadiness
    split
    · rw [startDwell_eq]
      split
      · split <;> rfl
      · rfl
    · split <;> rfl
    · split <;> rfl

/-- What an evaluation counts, by the move of readiness that it makes (R108, R110, R111). -/
theorem evaluateReadiness_counters (now : Instant) (s : State) :
    let after := evaluateReadiness now s
    after.counters =
      (if coldFallback s = true then
        if s.temp.readiness ≠ .ready ∧ after.temp.readiness = .ready then bump Ctr.thermalFallbackGrants s else s
      else match s.temp.readiness, after.temp.readiness with
        | .ready, .notReady => bump Ctr.thermalReadinessLosses s
        | .dwelling, .notReady => bump Ctr.thermalDwellsAbandoned s
        | _, _ => s).counters := by
  intro after
  cases cold : coldFallback s with
  | true =>
    have run : after = _ := evaluateReadiness_fallback now cold
    rw [if_pos rfl, run]
    by_cases grants : fallbackElapsed now s = true
    · rw [if_pos grants]
      by_cases ready : s.temp.readiness = .ready
      · rw [if_pos ready, if_neg fun h => h.1 ready]
        rfl
      · rw [if_neg ready, if_pos ⟨ready, rfl⟩]
        rfl
    · rw [if_neg grants, if_neg (fun h => nomatch h.2)]
      rfl
  | false =>
    have run : after = _ := evaluateReadiness_measured now cold
    rw [if_neg (by decide), run, measuredReadiness]
    cases readiness : s.temp.readiness with
    | notReady =>
      dsimp only
      split
      · rw [startDwell_eq]
        split <;> rfl
      · rfl
    | dwelling =>
      dsimp only
      split
      · rw [readiness]
      · rfl
    | ready =>
      dsimp only
      split
      · rw [readiness]
      · rfl

end Sys2Proof.Machine
end

section
/-! SUPPORT. The sampling event and the dwell's expiry as the Liveness Controller takes them (O32, O33). -/

namespace Sys2Proof.Machine

/-! ### What liveness makes of Hot and of readiness (R79, R92, R112, R113) -/

theorem leaveColdHold_eq (now : Instant) (s : State) : leaveColdHold now s =
    if s.live.state = .coldHold ∧ s.temp.hot = false ∧ s.temp.readiness = .ready then enterPowering now s else s := by
  unfold leaveColdHold
  refine if_congr ?_ rfl rfl
  simp only [Bool.and_eq_true, beq_iff_eq, Bool.not_eq_true', and_assoc]
  exact and_congr_right fun _ => and_comm

theorem leaveColdHold_again (now : Instant) (s : State) :
    leaveColdHold now (leaveColdHold now s) = leaveColdHold now s := by
  rw [leaveColdHold_eq now s]
  split
  · refine leaveColdHold_elsewhere _ _ ?_
    rw [enterPowering, enterState_state]
    decide
  · rename_i stays
    rw [leaveColdHold_eq, if_neg stays]

/-- Hot found on a powered host: HOT HOLD, with the record of a PowerOff (R92, R94). -/
def hotHeld (now : Instant) (s : State) : State :=
  bump Ctr.livenessOverTemperaturePowerOffs
    (enterState .hotHold none now (writeLog .overTemperature .powerOff false now s))

/-- The one move of liveness that a sampling event makes, if any. -/
theorem handOverThermal_eq (before : State) (now : Instant) (s : State) : handOverThermal before now s =
    if before.temp.hot = false ∧ s.temp.hot = true ∧ hostPowerEnable s = true then hotHeld now s
    else if s.live.state = .hotHold ∧ before.temp.hot = true ∧ s.temp.hot = false then enterColdHold now s
    else if s.live.state = .coldHold ∧ s.temp.hot = false ∧ s.temp.readiness = .ready ∧
        (before.temp.hot = true ∨ before.temp.readiness ≠ .ready) then enterPowering now s
    else s := by
  have readied (u : State) : (if (u.temp.readiness == .ready && before.temp.readiness != .ready) = true then
      leaveColdHold now u else u) = if u.temp.readiness = .ready ∧ before.temp.readiness ≠ .ready then
      leaveColdHold now u else u := if_congr (by simp) rfl rfl
  have run : handOverThermal before now s =
      let u := if (s.temp.hot && !before.temp.hot) = true then hotRaised now s
        else if (before.temp.hot && !s.temp.hot) = true then hotCleared now s else s
      if (u.temp.readiness == .ready && before.temp.readiness != .ready) = true then leaveColdHold now u else u := rfl
  rw [run]
  dsimp only
  rw [readied]
  have held : leaveColdHold now (hotHeld now s) = hotHeld now s :=
    leaveColdHold_elsewhere _ _ (by
      have state : (hotHeld now s).live.state = .hotHold := enterState_state ..
      rw [state]
      decide)
  have cold : leaveColdHold now (enterColdHold now s) = enterColdHold now s := leaveColdHold_again ..
  have raised : hotRaised now s = if hostPowerEnable s = true then hotHeld now s else s := rfl
  have cleared : hotCleared now s = if s.live.state = .hotHold then enterColdHold now s else leaveColdHold now s :=
    if_congr beq_iff_eq rfl rfl
  have again := leaveColdHold_again now s
  have leaves := leaveColdHold_eq now s
  cases was : before.temp.hot <;> cases is : s.temp.hot <;> grind

/-! ### What each move is -/

/-- Only the queue of the Key Event Unit and its loss mark move with liveness. -/
theorem HostUpHandOver.keyUnit {s t : State} (h : HostUpHandOver s t) :
    t.keyUnit.records = s.keyUnit.records ∧ t.keyUnit.chords = s.keyUnit.chords := by
  unfold HostUpHandOver at h
  split at h
  · obtain ⟨-, -, keyUnit, -⟩ := h
    rw [keyUnit]
    exact ⟨rfl, rfl⟩
  · obtain ⟨-, keyUnit, -⟩ := h
    rw [keyUnit]
    exact ⟨rfl, rfl⟩

/-- Leaving HostUp counts nothing of liveness (R96). -/
theorem leaveHostUp_liveness (v : State) : (leaveHostUp v.clock v).counters.liveness = v.counters.liveness := by
  obtain ⟨y, e, -⟩ := foldl_expireExchange_withReplies v v rfl (waitingByAge v.clock v) (nodup_waitingByAge v)
    (fun i hi => (mem_waitingByAge _ _ _).1 hi) v v.exchanges v.counters.exchanges (fun _ _ => rfl) rfl
  have tracked : withReplies (withTracker v.exchanges v.counters.exchanges v) v = v := rfl
  rw [tracked] at e
  have left : leaveHostUp v.clock v = flushKeyQueue (bumpBy Ctr.exchangesExpiriesOnLeavingHostUp _ _) :=
    congrArg (fun x => flushKeyQueue (bumpBy Ctr.exchangesExpiriesOnLeavingHostUp (waitingByAge v.clock v).length x)) e
  rw [left]
  rfl

/-- A powered host's change of state counts nothing of liveness. -/
theorem enterState_liveness (st : Liveness) (tm : Option Timer) (now : Instant) {s : State}
    (powered : s.live.state.isPowered = true) :
    (enterState st tm now s).counters.liveness = s.counters.liveness := by
  have stays : (st.isPowered && !s.live.state.isPowered) = false := by simp [powered]
  unfold enterState
  simp only [stays, Bool.false_eq_true, if_false]
  split
  · exact leaveHostUp_liveness { s with live := { s.live with state := st, enteredAt := now.sec, timer := tm } }
  · rfl

theorem PowerHandOver.bump_liveness {s t : State} (h : PowerHandOver s t) (i : Fin 11) :
    PowerHandOver s (bump (.liveness i) t) :=
  h

theorem bump_liveness_congr {s t : State} (h : t.counters.liveness = s.counters.liveness) (i : Fin 11) :
    (bump (.liveness i) t).counters.liveness = (bump (.liveness i) s).counters.liveness := by
  simp only [bump, bumpBy, Counters.set, Counters.get, h]

theorem HostUpHandOver.refl (s : State) : HostUpHandOver s s := by
  unfold HostUpHandOver
  rw [if_neg fun ⟨up, down⟩ => absurd (up.symm.trans down) (by decide)]
  exact ⟨rfl, rfl, rfl, rfl, rfl, rfl, rfl⟩

theorem PowerHandOver.refl (s : State) : PowerHandOver s s := by
  unfold PowerHandOver
  rw [if_neg fun ⟨off, on⟩ => absurd (off.symm.trans on) (by decide)]
  exact ⟨rfl, rfl⟩

/-- HOT HOLD entered by a powered host, with its record, its counter and what it hands over (R92, R94, R96). -/
theorem hotHeld_spec (now : Instant) {s : State} (powered : hostPowerEnable s = true) :
    (hotHeld now s).temp = s.temp ∧
    (hotHeld now s).log = s.log.append ⟨s.log.nextSeq, .overTemperature, .powerOff, now.sec, uptimeAt s.live now,
      loggedBoardTemp s, s.live.lateReplies, false⟩ ∧
    (hotHeld now s).counters.liveness = (bump Ctr.livenessOverTemperaturePowerOffs s).counters.liveness ∧
    HostUpHandOver s (hotHeld now s) ∧ PowerHandOver s (hotHeld now s) ∧
    (hotHeld now s).live = { s.live with state := .hotHold, enteredAt := now.sec, timer := none } := by
  let v := writeLog .overTemperature .powerOff false now s
  obtain ⟨live, -, -, handOver⟩ := enterState_powered (v := v) .hotHold none now powered
    ((SameHandOver.refl s).liveness v.live v.log v.counters.liveness) rfl
  have power : PowerHandOver s (enterState .hotHold none now v) :=
    enterState_powerHandOver .hotHold none now rfl rfl rfl
  have count : (enterState .hotHold none now v).counters.liveness = s.counters.liveness :=
    enterState_liveness .hotHold none now powered
  exact ⟨enterState_temp .., enterState_log .., bump_liveness_congr count _, handOver.bump_liveness _,
    power.bump_liveness _, live⟩

/-- What a sampling event makes of the monitor, the log, the counters and liveness, and what it hands over, from the
state `s` that its evaluations leave. -/
theorem handOverThermal_spec (before : State) (now : Instant) (s : State) :
    let t := handOverThermal before now s
    let raised := before.temp.hot = false ∧ s.temp.hot = true ∧ hostPowerEnable s = true
    let cleared := s.live.state = .hotHold ∧ before.temp.hot = true ∧ s.temp.hot = false
    t.temp = (if cleared then { s.temp with
        fallbackStart := some now.ms
        readiness := if coldFallback s = true then .notReady else s.temp.readiness
        dwell := if coldFallback s = true then none else s.temp.dwell } else s.temp) ∧
    t.log = (if raised then s.log.append ⟨s.log.nextSeq, .overTemperature, .powerOff, now.sec, uptimeAt s.live now,
      loggedBoardTemp s, s.live.lateReplies, false⟩ else s.log) ∧
    t.counters.liveness = (if raised then (bump Ctr.livenessOverTemperaturePowerOffs s).counters.liveness
      else s.counters.liveness) ∧
    HostUpHandOver s t ∧ PowerHandOver s t ∧
    t.live =
      (if raised then { s.live with state := .hotHold, enteredAt := now.sec, timer := none }
      else if cleared then
        if t.temp.readiness = .ready then poweringFrom now s
        else { s.live with state := .coldHold, enteredAt := now.sec, timer := none }
      else if s.live.state = .coldHold ∧ s.temp.hot = false ∧ s.temp.readiness = .ready ∧
          (before.temp.hot = true ∨ before.temp.readiness ≠ .ready) then poweringFrom now s
      else s.live) := by
  intro t raised cleared
  have run : t = _ := handOverThermal_eq before now s
  by_cases isRaised : raised
  · have notCleared : ¬ cleared := fun ⟨_, was, _⟩ => absurd (was.symm.trans isRaised.1) (by decide)
    rw [if_pos isRaised] at run
    rw [run, if_neg notCleared, if_pos isRaised, if_pos isRaised, if_pos isRaised]
    exact hotHeld_spec now isRaised.2.2
  · rw [if_neg isRaised] at run
    rw [if_neg isRaised, if_neg isRaised, if_neg isRaised]
    by_cases isCleared : cleared
    · rw [if_pos isCleared] at run
      rw [if_pos isCleared, if_pos isCleared, run]
      have off : s.live.state.isPowered = false := by rw [isCleared.1]; rfl
      obtain ⟨power, up⟩ : PowerHandOver s (enterColdHold now s) ∧ HostUpHandOver s (enterColdHold now s) :=
        enterColdHold_handOver now s.live off off
      have settled := enterColdHold_of_unpowered now off
      by_cases goesOn : s.temp.readiness = .ready ∧ coldFallback s = false ∧ s.temp.hot = false
      · have held : (coldHeld now s).live.state.isPowered = false := rfl
        have ready : (coldHeld now s).temp.readiness = .ready :=
          (if_neg (by rw [goesOn.2.1]; decide)).trans goesOn.1
        rw [if_pos goesOn, enterPowering_eq now held] at settled
        rw [settled] at power up ⊢
        rw [if_pos ready]
        exact ⟨rfl, rfl, rfl, up, power, rfl⟩
      · rw [if_neg goesOn] at settled
        have notReady : (coldHeld now s).temp.readiness ≠ .ready := by
          intro ready
          have value : (if coldFallback s = true then Readiness.notReady else s.temp.readiness) = .ready := ready
          cases cold : coldFallback s with
          | true =>
            rw [cold, if_pos rfl] at value
            cases value
          | false =>
            rw [cold, if_neg (by decide)] at value
            exact goesOn ⟨value, cold, isCleared.2.2⟩
        rw [settled] at power up ⊢
        rw [if_neg notReady]
        exact ⟨rfl, rfl, rfl, up, power, rfl⟩
    · rw [if_neg isCleared] at run
      rw [if_neg isCleared, if_neg isCleared]
      by_cases leaves : s.live.state = .coldHold ∧ s.temp.hot = false ∧ s.temp.readiness = .ready ∧
          (before.temp.hot = true ∨ before.temp.readiness ≠ .ready)
      · rw [if_pos leaves] at run
        rw [if_pos leaves, run]
        have off : s.live.state.isPowered = false := by rw [leaves.1]; rfl
        have blocks := enterPowering_blocks now off
        rw [enterPowering_eq now off] at blocks ⊢
        exact ⟨rfl, rfl, rfl, .of_down (not_hostUp_of_unpowered off) rfl rfl rfl rfl rfl rfl rfl,
          .of_blocks off rfl blocks, rfl⟩
      · rw [if_neg leaves] at run
        rw [if_neg leaves, run]
        exact ⟨rfl, rfl, rfl, .refl s, .refl s, rfl⟩

/-! ### The sampling event (R101) -/

/-- The channels of a sampling event, at its time. -/
def channelsTaken (board glass air : SensorCode) (s : State) : State :=
  sampleChannels board glass air { s with temp := { s.temp with lastSample := s.temp.lastSample + 100 } }

/-- The evaluations of a sampling event, before liveness takes them. -/
def readingsTaken (board glass air : SensorCode) (s : State) : State :=
  evaluateHot (evaluateReadiness s.clock (channelsTaken board glass air s))

theorem sampleDue_iff (s : State) : sampleDue s = true ↔ 100 ≤ elapsed s.temp.lastSample s.clock.ms :=
  decide_eq_true_iff

theorem exec_temperatureSample {s : State} (board glass air : SensorCode)
    (due : 100 ≤ elapsed s.temp.lastSample s.clock.ms) : exec (.temperatureSample board glass air) s =
      .next (handOverThermal s s.clock (readingsTaken board glass air s)) := by
  refine (congrArg _ (if_pos ((sampleDue_iff s).2 due))).trans ?_
  have clock : (channelsTaken board glass air s).clock = s.clock := sampleChannels_clock ..
  show Host.Outcome.next (handOverThermal s (channelsTaken board glass air s).clock
    (evaluateHot (evaluateReadiness (channelsTaken board glass air s).clock (channelsTaken board glass air s)))) = _
  rw [clock]
  rfl

section
variable (board glass air : SensorCode) (s : State)

theorem readingsTaken_channels :
    (readingsTaken board glass air s).temp.board = s.temp.board.sampled (sensorCurve s .board) board.toNat ∧
    (readingsTaken board glass air s).temp.glass = s.temp.glass.sampled (sensorCurve s .glass) glass.toNat ∧
    (readingsTaken board glass air s).temp.air = s.temp.air.sampled (sensorCurve s .air) air.toNat := by
  rw [readingsTaken, evaluateHot_frame, evaluateReadiness_frame, channelsTaken, sampleChannels_temp]
  exact ⟨rfl, rfl, rfl⟩

theorem readingsTaken_temp : (readingsTaken board glass air s).temp =
    { (evaluateReadiness s.clock (channelsTaken board glass air s)).temp with
      hot := (readingsTaken board glass air s).temp.hot } := by
  rw [readingsTaken, evaluateHot_frame]

theorem channelsTaken_hot : (channelsTaken board glass air s).temp.hot = s.temp.hot := by
  rw [channelsTaken, sampleChannels_temp]

theorem evaluateReadiness_hot (now : Instant) : (evaluateReadiness now s).temp.hot = s.temp.hot := by
  rw [evaluateReadiness_frame]

theorem coldFallback_readings :
    coldFallback (readingsTaken board glass air s) = coldFallback (channelsTaken board glass air s) := by
  rw [readingsTaken, evaluateHot_frame, evaluateReadiness_frame]
  rfl

theorem readingsTaken_liveness : (readingsTaken board glass air s).counters.liveness = s.counters.liveness := by
  rw [readingsTaken, evaluateHot_frame, evaluateReadiness_frame]
  exact sampleChannels_liveness ..

end

end Sys2Proof.Machine
end

section
/-! SUPPORT. The sampling event and the dwell's expiry, settled (O32, O33). -/

namespace Sys2Proof.Machine

theorem settings_congr {s t : State} (h : t.tables = s.tables) : settings t = settings s := by
  rw [settings, h]
  rfl

/-- Hot after a sampling event, by the working Board value that its channels give (R113, R114). -/
theorem readingsTaken_hot (board glass air : SensorCode) (s : State) {u : State}
    (value : workingBoard u = workingBoard (readingsTaken board glass air s)) :
    (readingsTaken board glass air s).temp.hot = (match workingBoard u with
      | none => false
      | some b => if s.temp.hot = true then decide ((settings s).resumeTemp ≤ b)
          else decide ((settings s).shutdownTemp ≤ b)) := by
  let v := evaluateReadiness s.clock (channelsTaken board glass air s)
  have taken : (readingsTaken board glass air s).temp.hot = hotAfter v := by rw [readingsTaken, evaluateHot_frame]
  have hot : v.temp.hot = s.temp.hot :=
    (evaluateReadiness_hot _ _).trans (channelsTaken_hot board glass air s)
  have table : settings v = settings s :=
    settings_congr ((evaluateReadiness_tables ..).trans (sampleChannels_tables ..))
  have same : workingBoard (readingsTaken board glass air s) = workingBoard v := by
    rw [readingsTaken, evaluateHot_frame]
    rfl
  rw [taken, value, same]
  rcases Option.eq_none_or_eq_some (workingBoard v) with absent | ⟨b, present⟩
  · simp only [hotAfter, absent]
  · simp only [hotAfter, present, hot, table]

section
variable (board glass air : SensorCode) (s : State)

/-- What the channels and the evaluations of a sampling event leave alone. -/
theorem readingsTaken_frame :
    let w := readingsTaken board glass air s
    w.live = s.live ∧ w.log = s.log ∧ w.tables = s.tables ∧ w.flags = s.flags ∧ w.mgmt = s.mgmt ∧
    w.store = s.store ∧ w.clock = s.clock ∧ w.keypad = s.keypad ∧ w.keyUnit = s.keyUnit := by
  simp [readingsTaken, channelsTaken]

theorem readingsTaken_fan :
    let w := readingsTaken board glass air s
    w.fan = { s.fan with learn :=
      if s.fan.learn.isLearning = true ∧ ((s.temp.board.isValid = true ∧ w.temp.board.isValid = false) ∨
        (s.temp.air.isValid = true ∧ w.temp.air.isValid = false)) then .abandoned else s.fan.learn } := by
  intro w
  have fan : w.fan = (channelsTaken board glass air s).fan := by simp [w, readingsTaken]
  have channels : w.temp.board = (channelsTaken board glass air s).temp.board ∧
      w.temp.air = (channelsTaken board glass air s).temp.air := by
    simp only [w]
    rw [readingsTaken_temp, evaluateReadiness_frame]
    exact ⟨rfl, rfl⟩
  rw [fan, channels.1, channels.2]
  exact sampleChannels_fan ..

/-- The state after a sampling event that is due. -/
def temperaturesTaken : State := handOverThermal s s.clock (readingsTaken board glass air s)

/-- Liveness may start the cold fallback again; nothing else of the monitor moves with it (R108). -/
theorem temperaturesTaken_temp :
    let w := readingsTaken board glass air s
    (temperaturesTaken board glass air s).temp =
      if s.live.state = .hotHold ∧ s.temp.hot = true ∧ w.temp.hot = false then { w.temp with
        fallbackStart := some s.clock.ms
        readiness := if coldFallback (channelsTaken board glass air s) = true then .notReady else w.temp.readiness
        dwell := if coldFallback (channelsTaken board glass air s) = true then none else w.temp.dwell }
      else w.temp := by
  intro w
  obtain ⟨temp, -⟩ := handOverThermal_spec s s.clock w
  obtain ⟨live, -⟩ := readingsTaken_frame board glass air s
  rw [show w.live = s.live from live, coldFallback_readings] at temp
  exact temp

theorem temperaturesTaken_channels :
    let w := readingsTaken board glass air s
    let t := temperaturesTaken board glass air s
    t.temp.board = w.temp.board ∧ t.temp.glass = w.temp.glass ∧ t.temp.air = w.temp.air ∧ t.temp.hot = w.temp.hot := by
  intro w t
  have temp : t.temp = _ := temperaturesTaken_temp board glass air s
  rw [temp]
  split <;> exact ⟨rfl, rfl, rfl, rfl⟩

/-- Readiness after a sampling event: the evaluation's, unless the cold fallback starts again (R101, R108, R112). -/
theorem temperaturesTaken_readiness :
    let u := channelsTaken board glass air s
    let v := (evaluateReadiness s.clock u).temp
    let t := temperaturesTaken board glass air s
    t.temp = if s.live.state = .hotHold ∧ s.temp.hot = true ∧ t.temp.hot = false then
      { v with
        hot := false, fallbackStart := some s.clock.ms
        readiness := if coldFallback u = true then .notReady else v.readiness
        dwell := if coldFallback u = true then none else v.dwell }
      else { v with hot := t.temp.hot } := by
  intro u v t
  let w := readingsTaken board glass air s
  obtain ⟨-, -, -, tHot⟩ := temperaturesTaken_channels board glass air s
  have hot : t.temp.hot = w.temp.hot := tHot
  have moved : t.temp = _ := temperaturesTaken_temp board glass air s
  have evaluated : w.temp = { v with hot := w.temp.hot } := readingsTaken_temp board glass air s
  rw [hot]
  refine moved.trans ?_
  by_cases starts : s.live.state = .hotHold ∧ s.temp.hot = true ∧ w.temp.hot = false
  · rw [if_pos starts, if_pos starts]
    rw [starts.2.2] at evaluated
    rw [evaluated]
  · rw [if_neg starts, if_neg starts]
    exact evaluated

/-- Liveness, the Restart Log and what is counted of both after a sampling event (R79, R92, R94, R112, R113). -/
theorem temperaturesTaken_liveness :
    let t := temperaturesTaken board glass air s
    let raised := s.temp.hot = false ∧ t.temp.hot = true ∧ hostPowerEnable s = true
    let powering : LivenessController := { s.live with
      state := .powering, enteredAt := s.clock.sec, bootTime := none,
      timer := some ⟨s.clock.ms, (settings s).powerSettle.toNat⟩ }
    t.log = (if raised then s.log.append ⟨s.log.nextSeq, .overTemperature, .powerOff, s.clock.sec,
      uptimeAt s.live s.clock, loggedBoardTemp t, s.live.lateReplies, false⟩ else s.log) ∧
    t.counters.liveness = (if raised then (bump Ctr.livenessOverTemperaturePowerOffs s).counters.liveness
      else s.counters.liveness) ∧
    t.live =
      (if raised then { s.live with state := .hotHold, enteredAt := s.clock.sec, timer := none }
      else if s.live.state = .hotHold ∧ s.temp.hot = true ∧ t.temp.hot = false then
        if t.temp.readiness = .ready then powering
        else { s.live with state := .coldHold, enteredAt := s.clock.sec, timer := none }
      else if s.live.state = .coldHold ∧ t.temp.hot = false ∧ t.temp.readiness = .ready ∧
          (s.temp.hot = true ∨ s.temp.readiness ≠ .ready) then powering
      else s.live) := by
  intro t raised powering
  let w := readingsTaken board glass air s
  obtain ⟨-, log, count, -, -, live⟩ := handOverThermal_spec s s.clock w
  obtain ⟨wLive, wLog, wTables, -⟩ := readingsTaken_frame board glass air s
  obtain ⟨tBoard, -, -, tHot⟩ := temperaturesTaken_channels board glass air s
  have wPower : hostPowerEnable w = hostPowerEnable s := by rw [hostPowerEnable, wLive]; rfl
  have wCount : (bump Ctr.livenessOverTemperaturePowerOffs w).counters.liveness =
      (bump Ctr.livenessOverTemperaturePowerOffs s).counters.liveness :=
    bump_liveness_congr (readingsTaken_liveness board glass air s) _
  have wPowering : poweringFrom s.clock w = powering := by
    rw [poweringFrom, wLive, settings_congr wTables]
  have wTemp : loggedBoardTemp w = loggedBoardTemp t := by
    rw [loggedBoardTemp, loggedBoardTemp, tBoard]
  simp only [w, wPower, wLog, wLive, wPowering, wTemp, wCount, readingsTaken_liveness, ← tHot] at log count live
  refine ⟨log, count, ?_⟩
  by_cases isCleared : s.live.state = .hotHold ∧ s.temp.hot = true ∧ t.temp.hot = false
  · rw [if_pos isCleared] at live ⊢
    exact live
  · have same : (readingsTaken board glass air s).temp.readiness = t.temp.readiness := by
      have temp : t.temp = _ := temperaturesTaken_temp board glass air s
      rw [temp, if_neg (by rwa [← tHot])]
    rw [same] at live
    exact live

end

/-- Settles O32. -/
theorem temperatureSampleRule : Obligations.TemperatureSampleRule := by
  refine ⟨fun curve code f held => ⟨fun good => sampled_valid good f held, fun bad => sampled_fault bad f held⟩,
    fun s board glass air => ?_, fun s x code => sampleChannel_eq s x code,
    fun s board glass air => sampleChannels_eq s board glass air, fun s => ?_, evaluateHot_eq⟩
  · intro curve
    refine ⟨fun early => ?_, fun due => ⟨_, exec_temperatureSample board glass air due, ?_⟩⟩
    · refine congrArg _ (if_neg ?_)
      rw [sampleDue_iff]
      exact Nat.not_le.2 early
    · let w := readingsTaken board glass air s
      let t := temperaturesTaken board glass air s
      obtain ⟨board', glass', air'⟩ := readingsTaken_channels board glass air s
      obtain ⟨tBoard, tGlass, tAir, tHot⟩ := temperaturesTaken_channels board glass air s
      obtain ⟨wLive, -, wTables, wFlags, wMgmt, wStore, wClock, wKeypad, wKeyUnit⟩ :=
        readingsTaken_frame board glass air s
      obtain ⟨log, count, live⟩ := temperaturesTaken_liveness board glass air s
      obtain ⟨-, -, -, up, power, -⟩ := handOverThermal_spec s s.clock w
      have value : workingBoard t = workingBoard w := by rw [workingBoard, tBoard, tAir]; rfl
      have held (was : s.temp.hot = false) (is : t.temp.hot = true) (powered : hostPowerEnable s = true) :
          t.live.state = .hotHold ∧ hostPowerEnable t = false := by
        rw [hostPowerEnable, live, if_pos ⟨was, is, powered⟩]
        exact ⟨rfl, rfl⟩
      have leaves : (s.temp.hot = false ∧ t.temp.hot = true ∧ hostPowerEnable s = true) → hostUp s = true →
          LeavesHostUp w t := fun ⟨was, is, powered⟩ isUp =>
        up.leaves ((congrArg (fun l => l.state.isHostUp) wLive).trans isUp)
          (not_hostUp_of_unpowered (held was is powered).2)
      have fan : t.fan = { s.fan with learn :=
          if s.fan.learn.isLearning = true ∧ ((s.temp.board.isValid = true ∧ t.temp.board.isValid = false) ∨
            (s.temp.air.isValid = true ∧ t.temp.air.isValid = false)) then .abandoned else s.fan.learn } := by
        rw [tBoard, tAir]
        exact (handOverThermal_fan ..).trans (readingsTaken_fan ..)
      exact ⟨tBoard.trans board', tGlass.trans glass', tAir.trans air',
        tHot.trans (readingsTaken_hot board glass air s value), held, ⟨log, count, ⟨leaves, up, power⟩, live⟩, fan,
        (handOverThermal_tables ..).trans wTables, (handOverThermal_flags ..).trans wFlags,
        (handOverThermal_mgmt ..).trans wMgmt, (handOverThermal_store ..).trans wStore,
        (handOverThermal_clock ..).trans wClock, (handOverThermal_keypad ..).trans wKeypad,
        up.keyUnit.1.trans (congrArg KeyEventUnit.records wKeyUnit),
        up.keyUnit.2.trans (congrArg KeyEventUnit.chords wKeyUnit)⟩
  · intro valid
    have same : ∀ c, c.usable = valid c := fun c => by cases c <;> rfl
    exact ⟨by rw [workingBoard, workingValue_eq, same, same], by rw [workingGlass, workingValue_eq, same, same]⟩

/-- Readiness outside cold fallback, with the working values `b` and `g` (R109 to R111). -/
theorem evaluateReadiness_given {s : State} {b g : Int} (now : Instant) (board : workingBoard s = some b)
    (glass : workingGlass s = some g) :
    let warm : Int → Prop := fun margin =>
      (settings s).bootMinTemp - margin ≤ b ∧ (settings s).glassMinTemp - margin ≤ g
    let after := (evaluateReadiness now s).temp
    (s.temp.readiness = .notReady → ¬warm 0 → after = s.temp) ∧
    (s.temp.readiness = .notReady → warm 0 → 0 < (settings s).readyDwell →
      after = { s.temp with readiness := .dwelling,
                            dwell := some ⟨now.ms, (settings s).readyDwell.toNat * 1000⟩ }) ∧
    (s.temp.readiness = .notReady → warm 0 → (settings s).readyDwell ≤ 0 →
      after = { s.temp with readiness := .ready, dwell := none }) ∧
    (s.temp.readiness = .dwelling → warm 0 → after = s.temp) ∧
    (s.temp.readiness = .dwelling → ¬warm 0 →
      after = { s.temp with readiness := .notReady, dwell := none }) ∧
    (s.temp.readiness = .ready → warm (settings s).readyHyst → after = s.temp) ∧
    (s.temp.readiness = .ready → ¬warm (settings s).readyHyst →
      after = { s.temp with readiness := .notReady, dwell := none }) := by
  intro warm after
  have measured : after = (measuredReadiness now s).temp := by
    have notCold : coldFallback s = false := by simp [coldFallback, board, glass]
    exact congrArg State.temp (evaluateReadiness_measured now notCold)
  have meets (margin : Int) : warmEnough s margin = true ↔ warm margin := warmEnough_iff board glass margin
  rw [measured, measuredReadiness]
  simp only [meets]
  refine ⟨fun state cold => ?_, fun state isWarm dwell => ?_, fun state isWarm dwell => ?_, fun state isWarm => ?_,
    fun state cold => ?_, fun state isWarm => ?_, fun state cold => ?_⟩ <;> simp only [state]
  · rw [if_neg cold]
  · rw [if_pos isWarm, startDwell_eq, if_neg (Int.not_le.2 dwell)]
    rfl
  · rw [if_pos isWarm, startDwell_eq, if_pos dwell]
    rfl
  · rw [if_pos isWarm]
  · rw [if_neg cold]
    rfl
  · rw [if_pos isWarm]
  · rw [if_neg cold]
    rfl

/-- The end of the dwell (R110, R112). -/
theorem exec_dwellExpiry {s : State} {d : Timer} (dwelling : s.temp.readiness = .dwelling)
    (timer : s.temp.dwell = some d) (due : d.length ≤ (s.clock.ms - d.start).toNat) :
    exec .dwellExpiry s = .next (leaveColdHold s.clock (setReadiness .ready none s)) := by
  have ran : (s.temp.readiness == .dwelling && timerDue s.temp.dwell s.clock.ms) = true := by
    rw [dwelling, timer]
    exact decide_eq_true due
  exact congrArg _ (if_pos ran)

/-- Settles O33. -/
theorem readinessRule : Obligations.ReadinessRule := by
  refine ⟨fun s now b g board glass => evaluateReadiness_given now board glass,
    fun s d dwelling timer due => ⟨_, exec_dwellExpiry dwelling timer due, ?_⟩, coldFallback_iff, fun s now cold => ?_,
    fun s board glass air due => ⟨_, exec_temperatureSample board glass air due, ?_⟩,
    fun s now cold dwelling short => ?_, fun s now => ⟨?_, evaluateReadiness_counters now s⟩⟩
  · rw [leaveColdHold_eq]
    by_cases leaves : s.live.state = .coldHold ∧ s.temp.hot = false
    · have off : s.live.state.isPowered = false := by rw [leaves.1]; rfl
      have blocks : BlocksNotAllowed s (enterPowering s.clock (setReadiness .ready none s)) :=
        (enterPowering_blocks (s := setReadiness .ready none s) s.clock off).of_same rfl rfl
      rw [if_pos ⟨leaves.1, leaves.2, rfl⟩]
      rw [enterPowering_eq (s := setReadiness .ready none s) s.clock off] at blocks ⊢
      exact ⟨rfl, fun _ _ => rfl, .of_blocks off rfl blocks, rfl, rfl, rfl, rfl, fun stays => absurd leaves stays⟩
    · rw [if_neg fun h => leaves ⟨h.1, h.2.1⟩]
      exact ⟨rfl, fun state hot => absurd ⟨state, hot⟩ leaves, .refl s, rfl, rfl, rfl, rfl, fun _ => rfl⟩
  · intro enough
    rw [evaluateReadiness_fallback now cold]
    refine ⟨fun grants => ?_, fun short => ?_⟩
    · rw [if_pos ((fallbackElapsed_iff now s).2 grants)]
      split <;> rfl
    · rw [if_neg ((fallbackElapsed_iff now s).not.2 short)]
      rfl
  · let t := temperaturesTaken board glass air s
    obtain ⟨-, -, live⟩ := temperaturesTaken_liveness board glass air s
    have temp := temperaturesTaken_readiness board glass air s
    refine ⟨temp, fun state cool change ready => ?_, fun state was cool => ?_⟩
    · have elsewhere : ¬ (s.live.state = .hotHold ∧ s.temp.hot = true ∧ t.temp.hot = false) :=
        fun h => absurd (state.symm.trans h.1) (by decide)
      have readied : t.temp.readiness = .ready := by
        rw [temp, if_neg elsewhere]
        exact ready
      have notRaised : ¬ (s.temp.hot = false ∧ t.temp.hot = true ∧ hostPowerEnable s = true) :=
        fun h => absurd (cool.symm.trans h.2.1) (by decide)
      rw [if_neg notRaised, if_neg elsewhere, if_pos ⟨state, cool, readied, change⟩] at live
      exact congrArg LivenessController.state live
    · have notRaised : ¬ (s.temp.hot = false ∧ t.temp.hot = true ∧ hostPowerEnable s = true) :=
        fun h => absurd (was.symm.trans h.1) (by decide)
      rw [if_neg notRaised, if_pos ⟨state, was, cool⟩] at live
      exact live
  · rw [evaluateReadiness_fallback now cold, if_neg ((fallbackElapsed_iff now s).not.2 short)]
    rfl
  · have frame := evaluateReadiness_frame now s
    rw [congrArg State.temp frame, congrArg State.counters frame]
    exact frame

end Sys2Proof.Machine
end
